-- ==== Sys2Proof/Word.lean ====
section
/-! DEFINITION. The word types of the block (spec/00_scope.md R6, spec/30_encoding.md R46). -/

namespace Sys2Proof

/-- A bus datum, a register, a bank byte (R6: 8 bits). -/
abbrev Byte := BitVec 8

/-- Half a byte: one pixel, or a pen (R6: 4 bits). -/
abbrev Nibble := BitVec 4

/-- A bus address (R5 `ADDR_BITS` = 17, decision D2). -/
abbrev BusAddr := BitVec 17

/-- A transaction word `T` (R45: 27 bits). -/
abbrev Word := BitVec 27

end Sys2Proof
end

