-- ==== Sys2Proof/Machine/Params.lean ====
section
/-! DEFINITION. The block's numeric parameters under the names of spec/00_scope.md R5, and the fixed bus addresses of
spec/20_memory.md R31. -/

namespace Sys2Proof.Param

/-- `WIN_BASE` -/
@[simp] abbrev winBase : Nat := 0x600
/-- last address of the direct window -/
@[simp] abbrev winLast : Nat := 0x3FFF
/-- first address of the bank-1 window -/
@[simp] abbrev win1Base : Nat := 0x10600
/-- last address of the bank-1 window -/
@[simp] abbrev win1Last : Nat := 0x13FFF
/-- `BANK_SIZE`: bytes in each packed video bank -/
@[simp] abbrev bankSize : Nat := 0x3A00
/-- video address of row 12, the first byte of a low-row array (R80, R82) -/
@[simp] abbrev lowBase : Nat := 0x300
/-- `LOWROW_SIZE` -/
@[simp] abbrev lowrowSize : Nat := 0x300
/-- `TOP_ROWS` -/
@[simp] abbrev topRows : Nat := 12
/-- `PAL_ENTRIES` -/
@[simp] abbrev palEntries : Nat := 64
/-- `PAL_BASE` -/
@[simp] abbrev palBase : Nat := 0x5500
/-- last palette register address -/
@[simp] abbrev palLast : Nat := 0x557F
/-- `CBANK_OFS` -/
@[simp] abbrev cbankOfs : Nat := 0x20
/-- `W0`, the weight of the lightest bit of a colour group -/
@[simp] abbrev w0 : Nat := 0x21
/-- `W1` -/
@[simp] abbrev w1 : Nat := 0x47
/-- `W2`, the weight of the heaviest bit -/
@[simp] abbrev w2 : Nat := 0x97
/-- `N_SPRITES` -/
@[simp] abbrev nSprites : Nat := 20
/-- `SPR_Y_BASE` -/
@[simp] abbrev sprYBase : Int := 240
/-- `SPR_Y` -/
@[simp] abbrev sprY : Nat := 0x00
/-- `SPR_TILE` -/
@[simp] abbrev sprTile : Nat := 0x20
/-- `SPR_ATTR` -/
@[simp] abbrev sprAttr : Nat := 0x40
/-- `SPR_X` -/
@[simp] abbrev sprX : Nat := 0x60
/-- bytes of the sprite table's offset space (R30 (5)) -/
@[simp] abbrev sprSize : Nat := 0x80
/-- `WB_W` -/
@[simp] abbrev wbW : Nat := 256
/-- `WB_H` -/
@[simp] abbrev wbH : Nat := 256
/-- address of `AIX` -/
@[simp] abbrev aixAddr : Nat := 0x5580
/-- address of `AIY` -/
@[simp] abbrev aiyAddr : Nat := 0x5581
/-- address of `BOTH` -/
@[simp] abbrev bothAddr : Nat := 0x5584
/-- address of `VBANK` -/
@[simp] abbrev vbankAddr : Nat := 0x5586
/-- address of `CBANK` -/
@[simp] abbrev cbankAddr : Nat := 0x5587

end Sys2Proof.Param
end

