-- ==== Sys2Proof/Syntax.lean ====
section
/-! DEFINITION. The sixteen operations of spec/30_encoding.md R51, one constructor per row of spec/opcode_table.json,
with the operands of R55's mnemonic spelling, and the generic spelling of the same operations. -/

namespace Sys2Proof

/-- One operation of the block, the analogue of an instruction (R9, R45). -/
inductive Instr where
  /-- `SETX d`, R83 -/
  | setx (d : Byte)
  /-- `SETY d`, R84 -/
  | sety (d : Byte)
  /-- `PLOT d`, R86 -/
  | plot (d : Byte)
  /-- `GETX`, R87 -/
  | getx
  /-- `GETY`, R88 -/
  | gety
  /-- `PEEK`, R89 -/
  | peek
  /-- `VWR r, d`, R92: `r` is the bank offset, 0 to 0x39FF -/
  | vwr (r : BitVec 14) (d : Byte)
  /-- `PAL o, d`, R72: `o` is the palette register offset, 0 to 0x7F -/
  | pal (o : BitVec 7) (d : Byte)
  /-- `AIX d`, R61 -/
  | aix (d : Byte)
  /-- `AIY d`, R62 -/
  | aiy (d : Byte)
  /-- `BOTH d`, R63 -/
  | both (d : Byte)
  /-- `VBANK d`, R64 -/
  | vbank (d : Byte)
  /-- `CBANK d`, R65 -/
  | cbank (d : Byte)
  /-- `VWR1 r, d`, R96: `r` is the bank offset, 0 to 0x39FF -/
  | vwr1 (r : BitVec 14) (d : Byte)
  /-- `FRAME`, R105 -/
  | frame
  /-- `RESET`, R140 -/
  | reset
  deriving DecidableEq, Repr

/-- What a transaction word says before any address is decoded: the three formats of R45, which are also the
generic spelling of R55 (`WR addr, data`, `RD addr`, `FRAME`, `RESET`). -/
inductive BusOp where
  | wr (addr : BusAddr) (data : Byte)
  | rd (addr : BusAddr)
  | frame
  | reset
  deriving DecidableEq, Repr

end Sys2Proof
end

