-- ==== Sys2Proof/WellFormed.lean ====
section
/-! DEFINITION. Which terms of Instr are operations of the block: the operand ranges of spec/30_encoding.md R51 and R55
that the operand's width does not already say. -/

namespace Sys2Proof

/-- The operand ranges of R55: a bank offset lies in 0 to 0x39FF; every other operand may take every value of its type
(R54: every datum is legal). -/
def Instr.wellFormed : Instr → Bool
  | .setx _ => true
  | .sety _ => true
  | .plot _ => true
  | .getx => true
  | .gety => true
  | .peek => true
  | .vwr r _ => decide (r.toNat < Param.bankSize)
  | .pal _ _ => true
  | .aix _ => true
  | .aiy _ => true
  | .both _ => true
  | .vbank _ => true
  | .cbank _ => true
  | .vwr1 r _ => decide (r.toNat < Param.bankSize)
  | .frame => true
  | .reset => true

end Sys2Proof
end

