-- ==== Sys2Proof/Decode.lean ====
section
/-! DEFINITION. Decoding a transaction word (spec/30_encoding.md R45 to R53) and encoding an operation. The packing of the word
and the exact decode are decisions D11 and D2 (log entry 18). -/

namespace Sys2Proof

/-- A word that selects no row of R51: no operation of the block, by name. -/
inductive Undecoded where
  /-- a bus write whose address lies in none of the write ranges (R52) -/
  | write (addr : BusAddr)
  /-- a bus read whose address is not 0x00000 to 0x00002 (R53) -/
  | read (addr : BusAddr)
  deriving DecidableEq, Repr

/-- `kind`, bits 26:25 of `T` (R46). -/
def kindOf (T : Word) : BitVec 2 := T.extractLsb' 25 2

/-- `addr`, bits 24:8 of `T` (R46). -/
def addrOf (T : Word) : BusAddr := T.extractLsb' 8 17

/-- `data`, bits 7:0 of `T` (R46). -/
def dataOf (T : Word) : Byte := T.extractLsb' 0 8

/-- The format of a word (R45, R46). -/
def unpack (T : Word) : BusOp :=
  if kindOf T = 0b00#2 then .wr (addrOf T) (dataOf T)
  else if kindOf T = 0b01#2 then .rd (addrOf T)
  else if kindOf T = 0b10#2 then .frame
  else .reset

/-- The write rows of R51, with the operands of R48 to R50. -/
def selectWrite (a : BusAddr) (d : Byte) : Except Undecoded Instr :=
  if a.toNat = 0x0000 then .ok (.setx d)
  else if a.toNat = 0x0001 then .ok (.sety d)
  else if a.toNat = 0x0002 then .ok (.plot d)
  else if Param.winBase ≤ a.toNat ∧ a.toNat ≤ Param.winLast then
    .ok (.vwr (BitVec.ofNat 14 (a.toNat - Param.winBase)) d)
  else if Param.palBase ≤ a.toNat ∧ a.toNat ≤ Param.palLast then
    .ok (.pal (BitVec.ofNat 7 (a.toNat - Param.palBase)) d)
  else if a.toNat = Param.aixAddr then .ok (.aix d)
  else if a.toNat = Param.aiyAddr then .ok (.aiy d)
  else if a.toNat = Param.bothAddr then .ok (.both d)
  else if a.toNat = Param.vbankAddr then .ok (.vbank d)
  else if a.toNat = Param.cbankAddr then .ok (.cbank d)
  else if Param.win1Base ≤ a.toNat ∧ a.toNat ≤ Param.win1Last then
    .ok (.vwr1 (BitVec.ofNat 14 (a.toNat - Param.win1Base)) d)
  else .error (.write a)

/-- The read rows of R51. -/
def selectRead (a : BusAddr) : Except Undecoded Instr :=
  if a.toNat = 0x0000 then .ok .getx
  else if a.toNat = 0x0001 then .ok .gety
  else if a.toNat = 0x0002 then .ok .peek
  else .error (.read a)

/-- The operation a word in the generic spelling is (R51, R55). -/
def select : BusOp → Except Undecoded Instr
  | .wr a d => selectWrite a d
  | .rd a => selectRead a
  | .frame => .ok .frame
  | .reset => .ok .reset

/-- The decoder: total on all words; a word that selects no row is rejected by name (R51 to R53). -/
def decode (T : Word) : Except Undecoded Instr := select (unpack T)

/-- `T = (kind << 25) | (addr << 8) | data` (R46); the three fields do not overlap, so the word is their sum. -/
def packWord (kind : BitVec 2) (addr : BusAddr) (data : Byte) : Word :=
  BitVec.ofNat 27 (2 ^ 25 * kind.toNat + 2 ^ 8 * addr.toNat + data.toNat)

/-- The word of an operation in the generic spelling (R46).
A read's data field and a strobe's address and data fields are ignored on input and are written 0 here. -/
def BusOp.pack : BusOp → Word
  | .wr a d => packWord 0b00 a d
  | .rd a => packWord 0b01 a 0
  | .frame => packWord 0b10 0 0
  | .reset => packWord 0b11 0 0

/-- The generic spelling of an operation (the table of R55). -/
def Instr.toBusOp : Instr → BusOp
  | .setx d => .wr 0x0000#17 d
  | .sety d => .wr 0x0001#17 d
  | .plot d => .wr 0x0002#17 d
  | .getx => .rd 0x0000#17
  | .gety => .rd 0x0001#17
  | .peek => .rd 0x0002#17
  | .vwr r d => .wr (BitVec.ofNat 17 (Param.winBase + r.toNat)) d
  | .pal o d => .wr (BitVec.ofNat 17 (Param.palBase + o.toNat)) d
  | .aix d => .wr (BitVec.ofNat 17 Param.aixAddr) d
  | .aiy d => .wr (BitVec.ofNat 17 Param.aiyAddr) d
  | .both d => .wr (BitVec.ofNat 17 Param.bothAddr) d
  | .vbank d => .wr (BitVec.ofNat 17 Param.vbankAddr) d
  | .cbank d => .wr (BitVec.ofNat 17 Param.cbankAddr) d
  | .vwr1 r d => .wr (BitVec.ofNat 17 (Param.win1Base + r.toNat)) d
  | .frame => .frame
  | .reset => .reset

/-- The transaction word of a well-formed operation (R46, R51). -/
def encode (i : Instr) : Word := i.toBusOp.pack

/-! ### The match/mask table of R51 -/

/-- One row of the match/mask table of R51; a row with no extra bound has the whole address space as its bounds. -/
structure OpRow where
  mnemonic : String
  mask     : Word
  bits     : Word
  addrLo   : Nat
  addrHi   : Nat
  deriving DecidableEq, Repr

/-- The word selects the row: its masked bits are the row's and its address lies in the row's bounds (R51). -/
def OpRow.selects (row : OpRow) (T : Word) : Bool :=
  decide (T &&& row.mask = row.bits) && decide (row.addrLo ≤ (addrOf T).toNat) && decide ((addrOf T).toNat ≤ row.addrHi)

/-- The row of each operation (R51). -/
def Instr.row : Instr → OpRow
  | .setx _ => ⟨"SETX", 0x7FFFF00#27, 0x0000000#27, 0, 0x1FFFF⟩
  | .sety _ => ⟨"SETY", 0x7FFFF00#27, 0x0000100#27, 0, 0x1FFFF⟩
  | .plot _ => ⟨"PLOT", 0x7FFFF00#27, 0x0000200#27, 0, 0x1FFFF⟩
  | .getx => ⟨"GETX", 0x7FFFF00#27, 0x2000000#27, 0, 0x1FFFF⟩
  | .gety => ⟨"GETY", 0x7FFFF00#27, 0x2000100#27, 0, 0x1FFFF⟩
  | .peek => ⟨"PEEK", 0x7FFFF00#27, 0x2000200#27, 0, 0x1FFFF⟩
  | .vwr _ _ => ⟨"VWR", 0x7C00000#27, 0x0000000#27, 0x00600, 0x03FFF⟩
  | .pal _ _ => ⟨"PAL", 0x7FF8000#27, 0x0550000#27, 0, 0x1FFFF⟩
  | .aix _ => ⟨"AIX", 0x7FFFF00#27, 0x0558000#27, 0, 0x1FFFF⟩
  | .aiy _ => ⟨"AIY", 0x7FFFF00#27, 0x0558100#27, 0, 0x1FFFF⟩
  | .both _ => ⟨"BOTH", 0x7FFFF00#27, 0x0558400#27, 0, 0x1FFFF⟩
  | .vbank _ => ⟨"VBANK", 0x7FFFF00#27, 0x0558600#27, 0, 0x1FFFF⟩
  | .cbank _ => ⟨"CBANK", 0x7FFFF00#27, 0x0558700#27, 0, 0x1FFFF⟩
  | .vwr1 _ _ => ⟨"VWR1", 0x7C00000#27, 0x1000000#27, 0x10600, 0x13FFF⟩
  | .frame => ⟨"FRAME", 0x6000000#27, 0x4000000#27, 0, 0x1FFFF⟩
  | .reset => ⟨"RESET", 0x6000000#27, 0x6000000#27, 0, 0x1FFFF⟩

/-- The sixteen rows of R51, in its order. -/
def opTable : List OpRow :=
  [ Instr.row (.setx 0),
    Instr.row (.sety 0),
    Instr.row (.plot 0),
    Instr.row .getx,
    Instr.row .gety,
    Instr.row .peek,
    Instr.row (.vwr 0 0),
    Instr.row (.pal 0 0),
    Instr.row (.aix 0),
    Instr.row (.aiy 0),
    Instr.row (.both 0),
    Instr.row (.vbank 0),
    Instr.row (.cbank 0),
    Instr.row (.vwr1 0 0),
    Instr.row .frame,
    Instr.row .reset ]

/-- The host's probe: the operation read from a word given as a number, bit 0 its least significant bit, of which the
first `nbits` bits are given and the others are 0. A number of more than 27 bits is no transaction word. -/
def decodeTableWord (nbits w : Nat) : Option Instr :=
  if w % 2 ^ nbits < 2 ^ 27 then
    match decode (BitVec.ofNat 27 (w % 2 ^ nbits)) with
    | .ok i => some i
    | .error _ => none
  else none

end Sys2Proof
end

