-- ==== Sys2Proof/Machine/State.lean ====
section
/-! DEFINITION. All the state the spec gives the block (spec/10_state.md R10 to R25, the table of
spec/70_reset_and_hazards.md R141), its inputs and outputs, and the reasons a step can stop. -/

namespace Sys2Proof.Machine

/-- A triple (red, green, blue) of bytes: a palette entry, a cell of `WB` or of `Out` (R20, R23, R35). -/
structure Rgb where
  red   : Byte
  green : Byte
  blue  : Byte
  deriving DecidableEq, Repr, Inhabited

/-- (0, 0, 0). -/
def black : Rgb := ⟨0, 0, 0⟩

/-- A byte array (`VB0`, `VB1`, `LR0`, `LR1`, `SPR`): the bytes that are not 0x00, by rising offset.
An unlisted offset holds `unlistedByte` (log entry 3). -/
abbrev Memory := List Host.Cell

/-- A raster (`WB`, `Out`): the cells that are not black, by rising `256 * y + x`.
An unlisted cell holds `unlistedCell` (log entry 3). -/
abbrev Raster := List (Nat × Rgb)

/-- What a listed-nowhere byte is: the ONE definition for every byte array (log entry 3). -/
abbrev unlistedByte : Byte := 0x00

/-- What a listed-nowhere raster cell is (log entry 3). -/
abbrev unlistedCell : Rgb := black

/-- The block's state: the items of the table of R141. -/
structure Block where
  /-- `X` = `x[0]` (R11) -/
  x     : Byte
  /-- `Y` = `x[1]` (R12) -/
  y     : Byte
  /-- `P` = `x[2]` (R13) -/
  p     : Byte
  /-- `AIX` (R15) -/
  aix   : Byte
  /-- `AIY` (R16) -/
  aiy   : Byte
  /-- `BOTH` (R17) -/
  both  : Byte
  /-- `VBANK` (R18) -/
  vbank : Byte
  /-- `CBANK` (R19) -/
  cbank : Byte
  /-- `PAL[0..63]` (R20) -/
  pal   : Vector Rgb 64
  /-- `dirty` (R21) -/
  dirty : Bool
  /-- `VB0[0..0x39FF]` (R22) -/
  vb0   : Memory
  /-- `VB1[0..0x39FF]` (R22) -/
  vb1   : Memory
  /-- `LR0[0..0x2FF]` (R82) -/
  lr0   : Memory
  /-- `LR1[0..0x2FF]` (R82) -/
  lr1   : Memory
  /-- `WB[0..255, 0..255]` (R23) -/
  wb    : Raster
  deriving DecidableEq, Repr

/-- What an operation gives to the outside: the byte a read drives to the bus (R7 `return`), the raster a frame
operation emits (R25), or nothing. -/
inductive Output where
  | nothing
  | byte (v : Byte)
  | raster (out : Raster)
  deriving DecidableEq, Repr

/-- One operation as the environment presents it: its transaction word (R45) and the sprite table as it stands then
(R24, R42: an input, sampled once). -/
structure Presented where
  word : Word
  spr  : Memory
  deriving DecidableEq, Repr

/-- The block, the parameter `ResetValue`, the block's inputs and its output. -/
structure State where
  /-- the block's state -/
  blk        : Block
  /-- `ResetValue`, one value per item of `blk`, the same at every reset (R140, R141): a parameter the model holds as plain
  data that no operation writes, so that a statement about every state is one about every assignment (log entry 2) -/
  resetValue : Block
  /-- `SPR`, presented with the operation being executed (R24; log entry 4) -/
  spr        : Memory
  /-- the operations the environment presents next, the next one first (R27, R41; log entry 4) -/
  pending    : List Presented
  /-- what the last operation gave to the outside (log entry 5) -/
  output     : Output
  deriving DecidableEq, Repr

/-- The reasons the machine stops with a fault: there is none.
No operation "can fault, abort, be rejected or end in an error state" (R120). -/
inductive Fault where
  deriving DecidableEq, Repr

/-- The reasons for a refusal. -/
inductive Refusal where
  /-- raised by an arm of exec whose instruction has no meaning yet; safe. No arm of this model raises it. -/
  | notModelled (mnemonic : String)
  deriving DecidableEq, Repr

/-- Every item zero. It is the preset `ZeroState` of R143, and the assignment the model names for `State.reset`
(log entry 1, DESIGN CHOICE, unsafe: the spec leaves every reset value unspecified, R141). -/
def Block.zero : Block where
  x := 0
  y := 0
  p := 0
  aix := 0
  aiy := 0
  both := 0
  vbank := 0
  cbank := 0
  pal := Vector.replicate 64 black
  dirty := false
  vb0 := []
  vb1 := []
  lr0 := []
  lr1 := []
  wb := []

/-- Right after power-on or reset (R140 (d)) of the instance whose `ResetValue` is `rv`, nothing presented yet. -/
def State.afterReset (rv : Block) : State where
  blk := rv
  resetValue := rv
  spr := []
  pending := []
  output := .nothing

/-- The machine right after reset, with the assignment the model names (log entry 1). -/
def State.reset : State := State.afterReset Block.zero

end Sys2Proof.Machine
end

