-- ==== Sys2Proof/Machine/Flags.lean ====
section
/-! DEFINITION. What bit 7 of each flag register means (spec/10_state.md R14 to R19) and what is computed from it. -/

namespace Sys2Proof.Machine

/-- "Top bit set": bit 7 of the byte is 1 (R9). -/
def topBit (v : Byte) : Bool := v.getLsbD 7

/-- Auto-increment is enabled exactly when bit 7 of the register is 0 (R15, R16: inverted sense). -/
def autoIncrement (flag : Byte) : Bool := !topBit flag

/-- The mode of a direct window write (the table of R91). -/
inductive WriteMode where
  | fanOut
  | bank1
  | bank0
  deriving DecidableEq, Repr

/-- The mode `BOTH` and `VBANK` select, `BOTH` first (R91, R93 (a)). -/
def writeMode (both vbank : Byte) : WriteMode :=
  if topBit both then .fanOut else if topBit vbank then .bank1 else .bank0

/-- The palette index of a bitmap pixel: the pixel value, plus 0x20 when `CBANK[7]` is 1, clamped to the table (R100). -/
def bitmapIndex (cbank : Byte) (v : Nibble) : Fin 64 :=
  ⟨min (v.toNat + if topBit cbank then Param.cbankOfs else 0) 63, by omega⟩

/-- The sprites' palette bank: `1 + 2*CBANK[7]` (R113). -/
def spriteBank (cbank : Byte) : Fin 4 := if topBit cbank then 3 else 1

/-- Entry of pen `pen` of palette bank `bank`: `16*bank + pen` (R101). -/
def bankIndex (bank : Fin 4) (pen : Nibble) : Fin 64 :=
  ⟨16 * bank.val + pen.toNat, by have := bank.isLt; have := pen.isLt; omega⟩

end Sys2Proof.Machine
end

