-- ==== Sys2Proof/Machine/Operands.lean ====
section
/-! DEFINITION. Operand forms: the nibbles of a byte, the coordinate translations and the colour fields
(spec/30_encoding.md R48 to R50, spec/20_memory.md R34, spec/41_palette_decoder.md R71, R73,
spec/42_indexed_bitmap_addresser.md R80, spec/43_dual_bank_pixel_writer.md R90). -/

namespace Sys2Proof.Machine

/-- `lo(b) = b[3:0]` (R6). -/
def lo (b : Byte) : Nibble := b.extractLsb' 0 4

/-- `hi(b) = b[7:4]` (R6). -/
def hi (b : Byte) : Nibble := b.extractLsb' 4 4

/-- The byte `{h, l}`: `16*h + l` (R6). -/
def joinNibbles (h l : Nibble) : Byte := BitVec.ofNat 8 (16 * h.toNat + l.toNat)

/-- `zext_8` of a pixel (R7). -/
def zext8 (v : Nibble) : Byte := v.zeroExtend 8

/-- The storages an access can name (R7). -/
inductive StoreName where
  | vb0
  | vb1
  | lr0
  | lr1
  deriving DecidableEq, Repr

/-- The nibble that holds a pixel: `(store, index, nibble)` of R80; `high` is nibble 1. -/
structure Spot where
  store : StoreName
  index : Nat
  high  : Bool
  deriving DecidableEq, Repr

/-- The video address `a = (y << 6) + (x >> 2)` (R80). -/
def videoAddress (x y : Byte) : Nat := (y.toNat <<< 6) + (x.toNat >>> 2)

/-- `Locate(x, y)` for `y >= 12` (R80, R82). Its callers ask for it in no other row. -/
def locate (x y : Byte) : Spot :=
  if Param.winBase ≤ videoAddress x y then
    { store := if x.getLsbD 1 then .vb1 else .vb0
      index := videoAddress x y - Param.winBase
      high := x.getLsbD 0 }
  else
    { store := if x.getLsbD 1 then .lr1 else .lr0
      index := videoAddress x y - Param.lowBase
      high := x.getLsbD 0 }

/-- Display row of a bank offset: `(r + 0x600) >> 6` (R34, R90). -/
def windowRow (r : Nat) : Nat := (r + Param.winBase) >>> 6

/-- First display column of a bank offset: `((r + 0x600) & 0x3F) << 2` (R34, R90). -/
def windowCol (r : Nat) : Nat := ((r + Param.winBase) &&& 0x3F) <<< 2

/-- The table slot of a palette register offset: `o[5:0]` (R70). -/
def paletteSlot (o : BitVec 7) : Fin 64 := ⟨(o.extractLsb' 0 6).toNat, (o.extractLsb' 0 6).isLt⟩

/-- The component value of a group of three inverted bits: `0x21*b0 + 0x47*b1 + 0x97*b2` (R73). -/
def weigh (b0 b1 b2 : Bool) : Byte :=
  BitVec.ofNat 8 (Param.w0 * b0.toNat + Param.w1 * b1.toNat + Param.w2 * b2.toNat)

/-- The palette entry of a palette register write (R71, R72; bit order within a group: decision D16, log entry 14). -/
def decodeColour (o : BitVec 7) (d : Byte) : Rgb where
  red := weigh (!d.getLsbD 5) (!d.getLsbD 6) (!d.getLsbD 7)
  green := weigh (!d.getLsbD 2) (!d.getLsbD 3) (!d.getLsbD 4)
  blue := weigh (!d.getLsbD 0) (!d.getLsbD 1) (!o.getLsbD 6)

end Sys2Proof.Machine
end

