-- ==== Sys2Proof/Machine/Ops.lean ====
section
/-! DEFINITION. The named operations over the byte arrays, the rasters, the block's registers and the block's ports.
There is no exception to take and none to return from (spec/60_exceptions.md R120, R127), so no operation for it. -/

namespace Sys2Proof.Machine

/-! ### Sparse arrays in canonical form -/

/-- The value at `a`: the one listed, else `dflt`. -/
def sparseRead {α : Type} (dflt : α) : List (Nat × α) → Nat → α
  | [], _ => dflt
  | (k, v) :: m, a => if k = a then v else sparseRead dflt m a

/-- Lists `v` at `a`, before the first larger key. -/
def sparseInsert {α : Type} (a : Nat) (v : α) : List (Nat × α) → List (Nat × α)
  | [] => [(a, v)]
  | (k, w) :: m => if a < k then (a, v) :: (k, w) :: m else (k, w) :: sparseInsert a v m

/-- Forgets what is listed at `a`. -/
def sparseErase {α : Type} (a : Nat) : List (Nat × α) → List (Nat × α)
  | [] => []
  | (k, w) :: m => if k = a then sparseErase a m else (k, w) :: sparseErase a m

/-- Writes `v` at `a`; the value an unlisted key has is not listed. -/
def sparseWrite {α : Type} [DecidableEq α] (dflt : α) (m : List (Nat × α)) (a : Nat) (v : α) : List (Nat × α) :=
  if v = dflt then sparseErase a m else sparseInsert a v (sparseErase a m)

/-- The canonical form of an array of `n` places: keys strictly rising and below `n`, no default value listed. -/
abbrev SparseWf {α : Type} (dflt : α) (n : Nat) (m : List (Nat × α)) : Prop :=
  m.Pairwise (fun p q => p.1 < q.1) ∧ ∀ p ∈ m, p.1 < n ∧ p.2 ≠ dflt

/-! ### Byte arrays -/

/-- `MemRead(S, a, 1)` (R7). -/
def Memory.read (m : Memory) (a : Nat) : Byte := sparseRead unlistedByte m a

/-- `MemWrite(S, a, 1, v)` (R7). -/
def Memory.write (m : Memory) (a : Nat) (v : Byte) : Memory := sparseWrite unlistedByte m a v

/-- The canonical form of a byte array of `n` bytes. -/
abbrev Memory.wf (n : Nat) (m : Memory) : Prop := SparseWf unlistedByte n m

/-! ### Rasters -/

/-- Key of the cell at column `x`, row `y`. -/
def cellKey (x y : Nat) : Nat := Param.wbW * y + x

/-- `WB[x, y]` or `Out[x, y]` (R7). -/
def Raster.read (w : Raster) (x y : Nat) : Rgb := sparseRead unlistedCell w (cellKey x y)

/-- `WB[x, y] <- c` or `Out[x, y] <- c` (R7). -/
def Raster.write (w : Raster) (x y : Nat) (c : Rgb) : Raster := sparseWrite unlistedCell w (cellKey x y) c

/-- The canonical form of a raster of 256 by 256 cells. -/
abbrev Raster.wf (w : Raster) : Prop := SparseWf unlistedCell (Param.wbW * Param.wbH) w

/-! ### The block's registers and storages: one update per item -/

/-- `X <- v` -/
def Block.setX (b : Block) (v : Byte) : Block := { b with x := v }
/-- `Y <- v` -/
def Block.setY (b : Block) (v : Byte) : Block := { b with y := v }
/-- `P <- v` -/
def Block.setP (b : Block) (v : Byte) : Block := { b with p := v }
/-- `AIX <- v` -/
def Block.setAix (b : Block) (v : Byte) : Block := { b with aix := v }
/-- `AIY <- v` -/
def Block.setAiy (b : Block) (v : Byte) : Block := { b with aiy := v }
/-- `BOTH <- v` -/
def Block.setBoth (b : Block) (v : Byte) : Block := { b with both := v }
/-- `VBANK <- v` -/
def Block.setVbank (b : Block) (v : Byte) : Block := { b with vbank := v }
/-- `CBANK <- v` -/
def Block.setCbank (b : Block) (v : Byte) : Block := { b with cbank := v }
/-- `PAL[i] <- c` -/
def Block.setPal (b : Block) (i : Fin 64) (c : Rgb) : Block := { b with pal := b.pal.set i.val c i.isLt }
/-- `dirty <- v` -/
def Block.setDirty (b : Block) (v : Bool) : Block := { b with dirty := v }
/-- `VB0` becomes `m` -/
def Block.setVb0 (b : Block) (m : Memory) : Block := { b with vb0 := m }
/-- `VB1` becomes `m` -/
def Block.setVb1 (b : Block) (m : Memory) : Block := { b with vb1 := m }
/-- `LR0` becomes `m` -/
def Block.setLr0 (b : Block) (m : Memory) : Block := { b with lr0 := m }
/-- `LR1` becomes `m` -/
def Block.setLr1 (b : Block) (m : Memory) : Block := { b with lr1 := m }
/-- `WB` becomes `w` -/
def Block.setWb (b : Block) (w : Raster) : Block := { b with wb := w }

/-- `PAL[i]` -/
def Block.palAt (b : Block) (i : Fin 64) : Rgb := b.pal[i.val]

/-- The contents of storage `S`. -/
def Block.store (b : Block) : StoreName → Memory
  | .vb0 => b.vb0
  | .vb1 => b.vb1
  | .lr0 => b.lr0
  | .lr1 => b.lr1

/-- Storage `S` becomes `m`. -/
def Block.setStore (b : Block) (S : StoreName) (m : Memory) : Block :=
  match S with
  | .vb0 => b.setVb0 m
  | .vb1 => b.setVb1 m
  | .lr0 => b.setLr0 m
  | .lr1 => b.setLr1 m

/-- `MemRead(S, a, 1)` on the block's own storages. -/
def Block.memRead (b : Block) (S : StoreName) (a : Nat) : Byte := Memory.read (b.store S) a

/-- `MemWrite(S, a, 1, v)` on the block's own storages. -/
def Block.memWrite (b : Block) (S : StoreName) (a : Nat) (v : Byte) : Block :=
  b.setStore S (Memory.write (b.store S) a v)

/-- `NibRead` (R85). -/
def Block.nibRead (b : Block) (q : Spot) : Nibble :=
  if q.high then hi (b.memRead q.store q.index) else lo (b.memRead q.store q.index)

/-- The byte `old` with one nibble replaced by `v`, the other kept (R85: "merge ..., never clobber it"). -/
def mergeNibble (old : Byte) (high : Bool) (v : Nibble) : Byte :=
  if high then joinNibbles v (lo old) else joinNibbles (hi old) v

/-- `NibWrite` (R85). -/
def Block.nibWrite (b : Block) (q : Spot) (v : Nibble) : Block :=
  b.memWrite q.store q.index (mergeNibble (b.memRead q.store q.index) q.high v)

/-- What a paint puts where on the raster `w` (R100): at `(x, y)`, a copy of the palette entry that pixel value `v` selects
with the block's palette and `CBANK` as they are. -/
def Block.paintOn (b : Block) (w : Raster) (x y : Nat) (v : Nibble) : Raster :=
  Raster.write w x y (b.palAt (bitmapIndex b.cbank v))

/-- `Paint(x, y, v)`, "the only way a working-bitmap cell changes" (R100). -/
def Block.paint (b : Block) (x y : Nat) (v : Nibble) : Block := b.setWb (b.paintOn b.wb x y v)

/-! ### The ports -/

/-- An operation that acts on the block and gives nothing to the outside. -/
def State.act (s : State) (f : Block → Block) : State := { s with blk := f s.blk, output := .nothing }

/-- `return v` (R7): a read drives `v` to the bus and changes no state of the block (R38). -/
def State.reply (s : State) (v : Byte) : State := { s with output := .byte v }

/-- `emit Out` (R105), the block having become `b`. -/
def State.emit (s : State) (b : Block) (out : Raster) : State := { s with blk := b, output := .raster out }

/-- A bus access that is no operation of the block: it changes no state of the block, and the block supplies no value
(R52, R53; log entry 8). -/
def State.notAddressed (s : State) : State := { s with output := .nothing }

/-- Takes the next operation the environment presents: its word, and the state in which it is executed. -/
def State.fetch (s : State) : Option (Word × State) :=
  match s.pending with
  | [] => none
  | q :: rest => some (q.word, { s with pending := rest, spr := q.spr })

/-- The environment presents the word `T` as the next operation, with the sprite table as it stands. -/
def State.present (s : State) (T : Word) : State := { s with pending := ⟨T, s.spr⟩ :: s.pending }

end Sys2Proof.Machine
end

