-- ==== Sys2Proof/Machine/FlagWrites.lean ====
section
/-! DEFINITION. The five flag register writes (spec/40_control_flags.md R60 to R65). -/

namespace Sys2Proof.Machine

/-- AIX (R61). -/
def execAix (d : Byte) (s : State) : Host.Outcome State Fault Refusal := .next (s.act (·.setAix d))

/-- AIY (R62). -/
def execAiy (d : Byte) (s : State) : Host.Outcome State Fault Refusal := .next (s.act (·.setAiy d))

/-- BOTH (R63). -/
def execBoth (d : Byte) (s : State) : Host.Outcome State Fault Refusal := .next (s.act (·.setBoth d))

/-- VBANK (R64). -/
def execVbank (d : Byte) (s : State) : Host.Outcome State Fault Refusal := .next (s.act (·.setVbank d))

/-- CBANK (R65): in particular `dirty` is not set and no cell is repainted. -/
def execCbank (d : Byte) (s : State) : Host.Outcome State Fault Refusal := .next (s.act (·.setCbank d))

end Sys2Proof.Machine
end

