-- ==== Sys2Proof/Machine/PixelWriter.lean ====
section
/-! DEFINITION. dual_bank_pixel_writer (spec/43_dual_bank_pixel_writer.md). -/

namespace Sys2Proof.Machine

/-- The two paints of bank 0 at offset `r` on the raster `w` (the bank-0 row of the table of R91). -/
def Block.placeBank0 (b : Block) (w : Raster) (r : Nat) (d : Byte) : Raster :=
  b.paintOn (b.paintOn w (windowCol r) (windowRow r) (lo d)) (windowCol r + 1) (windowRow r) (hi d)

/-- The two paints of bank 1 at offset `r` on the raster `w` (the bank-1 row of the table of R91). -/
def Block.placeBank1 (b : Block) (w : Raster) (r : Nat) (d : Byte) : Raster :=
  b.paintOn (b.paintOn w (windowCol r + 2) (windowRow r) (lo d)) (windowCol r + 3) (windowRow r) (hi d)

/-- The direct window write at offset `r` (R92), in the mode `BOTH` and `VBANK` select. -/
def Block.writeDirect (b : Block) (r : Nat) (d : Byte) : Block :=
  match writeMode b.both b.vbank with
  | .fanOut => ((b.memWrite .vb0 r d).memWrite .vb1 r d).setWb (b.placeBank1 (b.placeBank0 b.wb r d) r d)
  | .bank1 => (b.memWrite .vb1 r d).setWb (b.placeBank1 b.wb r d)
  | .bank0 => (b.memWrite .vb0 r d).setWb (b.placeBank0 b.wb r d)

/-- VWR (R92). An offset above 0x39FF is not well formed: its address, 0x4000 or more, is no address of the window, and the
write changes nothing in the block (R52; log entry 18). -/
def execVwr (r : BitVec 14) (d : Byte) (s : State) : Host.Outcome State Fault Refusal :=
  .next (s.act fun b => if r.toNat < Param.bankSize then b.writeDirect r.toNat d else b)

/-- VWR1 (R96; decision D9, log entry 10): a store into bank 1, no paint. An offset above 0x39FF is not well formed: its
address, 0x14000 or more, is no address of the window (R52; log entry 18). -/
def execVwr1 (r : BitVec 14) (d : Byte) (s : State) : Host.Outcome State Fault Refusal :=
  .next (s.act fun b => if r.toNat < Param.bankSize then b.memWrite .vb1 r.toNat d else b)

end Sys2Proof.Machine
end

