-- ==== Sys2Proof/Config.lean ====
section
/-! DEFINITION. What the spec leaves open as a parameter (spec/00_scope.md R5, spec/93_implementation_defined.md section 2).
The constants here have no body: no proof can learn a value of them. `ResetValue` is not here but in State, see log entry 2. -/

namespace Sys2Proof

/-- The tile data of the external renderer (R115): the open parameters `SPRITE_W`, `SPRITE_H` and `TilePen`.
Both sizes are positive integers, so the index of the last column and of the last row is what is kept. -/
structure TileSet where
  /-- `SPRITE_W - 1` -/
  lastCol : Nat
  /-- `SPRITE_H - 1` -/
  lastRow : Nat
  /-- `TilePen(tile, column, row)` -/
  pen     : Byte → Nat → Nat → Nibble
  deriving Inhabited

/-- A rectangle of the 256 by 256 raster, all four sides included. -/
structure Rect where
  left   : BitVec 8
  right  : BitVec 8
  top    : BitVec 8
  bottom : BitVec 8
  deriving DecidableEq, Repr, Inhabited

/-- `SPRITE_W`, `SPRITE_H`, `TilePen` of this machine: open (N9, decision D10; log entry 6). -/
opaque Config.tiles : TileSet

/-- `VISIBLE` of this machine: open (N10, decision D19; log entry 7). No rule depends on it. -/
opaque Config.visible : Rect

end Sys2Proof
end

