-- ==== Sys2Proof/Machine/SpriteCompositor.lean ====
section
/-! DEFINITION. sprite_compositor, step 3 of FRAME (spec/45_sprite_compositor.md). -/

namespace Sys2Proof.Machine

/-- A decoded sprite descriptor (R111, R112). -/
structure Sprite where
  tile   : Byte
  xflip  : Bool
  yflip  : Bool
  /-- "right-blank": decoded, no effect (R117) -/
  rblank : Bool
  /-- "left-blank": decoded, no effect (R117) -/
  lblank : Bool
  sx     : Int
  sy     : Int
  deriving DecidableEq, Repr

/-- The descriptor of sprite `i` in the sprite table (R110, R111); `sy` is computed in the integers. -/
def decodeSprite (spr : Memory) (i : Nat) : Sprite where
  tile := Memory.read spr (Param.sprTile + i)
  xflip := (Memory.read spr (Param.sprAttr + i)).getLsbD 7
  yflip := (Memory.read spr (Param.sprAttr + i)).getLsbD 6
  rblank := (Memory.read spr (Param.sprAttr + i)).getLsbD 5
  lblank := (Memory.read spr (Param.sprAttr + i)).getLsbD 4
  sx := (Memory.read spr (Param.sprX + i)).toNat
  sy := Param.sprYBase - (Memory.read spr (Param.sprY + i)).toNat

/-- The index inside a tile side whose last index is `last`, mirrored when `flip` (R115 `cs`, `rs`). -/
def mirror (flip : Bool) (last k : Nat) : Nat := if flip then last - k else k

/-- One pixel of a tile (the body of R115's loops): drawn unless its pen is the transparent one or it falls off the raster. -/
def drawPixel (t : TileSet) (pal : Fin 64 → Rgb) (tile : Byte) (bank : Fin 4) (xflip yflip : Bool) (x y : Int)
    (tpen : Nibble) (row : Nat) (out : Raster) (col : Nat) : Raster :=
  let pen := t.pen tile (mirror xflip t.lastCol col) (mirror yflip t.lastRow row)
  let px := x + col
  let py := y + row
  if pen ≠ tpen ∧ (0 ≤ px ∧ px ≤ 255) ∧ (0 ≤ py ∧ py ≤ 255) then
    Raster.write out px.toNat py.toNat (pal (bankIndex bank pen))
  else out

/-- `DrawTile`, the reference reading of R115 (decision D10, log entry 11). -/
def drawTile (t : TileSet) (pal : Fin 64 → Rgb) (out : Raster) (tile : Byte) (bank : Fin 4) (xflip yflip : Bool)
    (x y : Int) (tpen : Nibble) : Raster :=
  (List.range (t.lastRow + 1)).foldl
    (fun out row =>
      (List.range (t.lastCol + 1)).foldl (drawPixel t pal tile bank xflip yflip x y tpen row) out)
    out

/-- `DrawSprite(i)` (R114): one call of the renderer, transparent pen 0; the blank flags are not passed on (R117). -/
def drawSprite (t : TileSet) (b : Block) (spr : Memory) (out : Raster) (i : Nat) : Raster :=
  let q := decodeSprite spr i
  drawTile t b.palAt out q.tile (spriteBank b.cbank) q.xflip q.yflip q.sx q.sy 0

/-- Step 3 of R105: sprites 0 to 19 in ascending order, each over the raster as the earlier ones left it (R116). -/
def drawSprites (t : TileSet) (b : Block) (spr : Memory) (out : Raster) : Raster :=
  (List.range Param.nSprites).foldl (drawSprite t b spr) out

end Sys2Proof.Machine
end

