-- ==== Sys2Proof/Machine/Framebuffer.lean ====
section
/-! DEFINITION. rgb_framebuffer_builder: the rebuild and FRAME (spec/44_rgb_framebuffer_builder.md). -/

namespace Sys2Proof.Machine

/-- The body of the rebuild's loop at offset `r` (R102): the window's pixel placement, not its store, forced to bank 0 and
then to bank 1. -/
def Block.rebuildAt (b : Block) (w : Raster) (r : Nat) : Raster :=
  b.placeBank1 (b.placeBank0 w r (b.memRead .vb0 r)) r (b.memRead .vb1 r)

/-- The working bitmap after the rebuild's loop (R102): every offset of the banks, in order.
Irreducible so that no proof runs the 14848 passes by accident: unfold it by name. -/
@[irreducible] def Block.rebuiltWb (b : Block) : Raster := (List.range Param.bankSize).foldl b.rebuildAt b.wb

/-- `Rebuild()` (R102): it paints, and nothing else. -/
def Block.rebuild (b : Block) : Block := b.setWb b.rebuiltWb

/-- Step 1 of R105. -/
def Block.refresh (b : Block) : Block := if b.dirty then b.rebuild.setDirty false else b

/-- Steps 2 and 3 of R105: `WB` copied verbatim, then the sprites. -/
def Block.compose (t : TileSet) (b : Block) (spr : Memory) : Raster := drawSprites t b spr b.wb

/-- The frame operation with tile data `t` (R105). -/
def State.frameWith (t : TileSet) (s : State) : State :=
  s.emit s.blk.refresh (Block.compose t s.blk.refresh s.spr)

/-- FRAME (R105), with this machine's tile data. -/
def execFrame (s : State) : Host.Outcome State Fault Refusal := .next (s.frameWith Config.tiles)

end Sys2Proof.Machine
end

