-- ==== Sys2Proof/Machine/IndexedPort.lean ====
section
/-! DEFINITION. The indexed port (spec/42_indexed_bitmap_addresser.md). -/

namespace Sys2Proof.Machine

/-- SETX (R83). -/
def execSetx (d : Byte) (s : State) : Host.Outcome State Fault Refusal := .next (s.act (·.setX d))

/-- SETY (R84). -/
def execSety (d : Byte) (s : State) : Host.Outcome State Fault Refusal := .next (s.act (·.setY d))

/-- The stored side of a pixel write: rows below 12 store nothing (R86). -/
def Block.storePixel (b : Block) (v : Nibble) : Block :=
  if Param.topRows ≤ b.y.toNat then b.nibWrite (locate b.x b.y) v else b

/-- The two auto-increments, X first, each wrapping modulo 256 with no carry into the other (R86 (d), (e)). -/
def Block.advance (b : Block) : Block :=
  let b := if autoIncrement b.aix then b.setX (b.x + 1) else b
  if autoIncrement b.aiy then b.setY (b.y + 1) else b

/-- The pixel write (R86): `P`, the store, the paint (always), then the increments. -/
def Block.plot (b : Block) (d : Byte) : Block :=
  let b := b.setP d
  let b := b.storePixel (lo d)
  let b := b.paint b.x.toNat b.y.toNat (lo d)
  b.advance

/-- PLOT (R86). -/
def execPlot (d : Byte) (s : State) : Host.Outcome State Fault Refusal := .next (s.act (·.plot d))

/-- GETX (R87). -/
def execGetx (s : State) : Host.Outcome State Fault Refusal := .next (s.reply s.blk.x)

/-- GETY (R88). -/
def execGety (s : State) : Host.Outcome State Fault Refusal := .next (s.reply s.blk.y)

/-- The byte a PEEK returns (R89): 0 in rows below 12, else the stored pixel in the low nibble. -/
def Block.peekValue (b : Block) : Byte :=
  if b.y.toNat < Param.topRows then 0x00 else zext8 (b.nibRead (locate b.x b.y))

/-- PEEK (R89): no increment, `P` not written (decision D13, log entry 12). -/
def execPeek (s : State) : Host.Outcome State Fault Refusal := .next (s.reply s.blk.peekValue)

end Sys2Proof.Machine
end

