-- ==== Sys2Proof/Machine/PaletteDecoder.lean ====
section
/-! DEFINITION. palette_decoder (spec/41_palette_decoder.md). -/

namespace Sys2Proof.Machine

/-- The palette register write (R72): the whole entry is replaced and `dirty` set, always (R74). -/
def Block.writePalette (b : Block) (o : BitVec 7) (d : Byte) : Block :=
  (b.setPal (paletteSlot o) (decodeColour o d)).setDirty true

/-- PAL (R72). -/
def execPal (o : BitVec 7) (d : Byte) (s : State) : Host.Outcome State Fault Refusal :=
  .next (s.act (·.writePalette o d))

end Sys2Proof.Machine
end

