-- ==== Sys2Proof/Machine/Reset.lean ====
section
/-! DEFINITION. RESET (spec/70_reset_and_hazards.md R140, R141). -/

namespace Sys2Proof.Machine

/-- RESET (R140; decisions D5 and D18): every item of the block takes its `ResetValue`; no raster, `SPR` not read. -/
def execReset (s : State) : Host.Outcome State Fault Refusal := .next (s.act fun _ => s.resetValue)

end Sys2Proof.Machine
end

