-- ==== Sys2Proof/Machine/Dispatch.lean ====
section
/-! DEFINITION. One arm per operation of spec/30_encoding.md R51. -/

namespace Sys2Proof.Machine

def exec (i : Instr) (s : State) : Host.Outcome State Fault Refusal :=
  match i with
  | .setx d => Sys2Proof.Machine.execSetx d s
  | .sety d => Sys2Proof.Machine.execSety d s
  | .plot d => Sys2Proof.Machine.execPlot d s
  | .getx => Sys2Proof.Machine.execGetx s
  | .gety => Sys2Proof.Machine.execGety s
  | .peek => Sys2Proof.Machine.execPeek s
  | .vwr r d => Sys2Proof.Machine.execVwr r d s
  | .pal o d => Sys2Proof.Machine.execPal o d s
  | .aix d => Sys2Proof.Machine.execAix d s
  | .aiy d => Sys2Proof.Machine.execAiy d s
  | .both d => Sys2Proof.Machine.execBoth d s
  | .vbank d => Sys2Proof.Machine.execVbank d s
  | .cbank d => Sys2Proof.Machine.execCbank d s
  | .vwr1 r d => Sys2Proof.Machine.execVwr1 r d s
  | .frame => Sys2Proof.Machine.execFrame s
  | .reset => Sys2Proof.Machine.execReset s

end Sys2Proof.Machine
end

