-- ==== Sys2Proof/Machine/Step.lean ====
section
/-! DEFINITION. One step: the next operation the environment presents is performed whole (spec/20_memory.md R39, R41).
How a program comes to run: log entry 4. -/

namespace Sys2Proof.Machine

/-- With nothing presented the block does nothing: it never initiates an operation (R41). A presented word that selects no
row is no operation of the block (R52, R53). Any other word is the operation it selects. -/
def step (s : State) : Host.Outcome State Fault Refusal :=
  match s.fetch with
  | none => .next s
  | some (T, s') =>
    match decode T with
    | .ok i => exec i s'
    | .error _ => .next s'.notAddressed

/-- The operation whose bits are `w` presented as the next one (log entry 4). -/
def State.withFetchWord (s : State) (nbits w : Nat) : State := s.present (BitVec.ofNat 27 (w % 2 ^ nbits))

end Sys2Proof.Machine
end

