-- ==== Sys2Proof/Machine/PseudoOps.lean ====
section
/-! DEFINITION. The pseudo-operations of spec/30_encoding.md R56, fixed sequences of operations with no encoding of their
own, and performing a sequence (spec/20_memory.md R41). -/

namespace Sys2Proof.Machine

/-- `PLOTXY x, y, v` -/
def plotxyOps (x y v : Byte) : List Instr := [.setx x, .sety y, .plot v]

/-- `PEEKXY x, y` -/
def peekxyOps (x y : Byte) : List Instr := [.setx x, .sety y, .peek]

/-- `AUTOINC ex, ey`: 1 enables, and an enabled direction has 0x00 in its register -/
def autoincOps (ex ey : Bool) : List Instr :=
  [.aix (if ex then 0x00 else 0x80), .aiy (if ey then 0x00 else 0x80)]

/-- `MODE0`: direct writes to bank 0 -/
def mode0Ops : List Instr := [.both 0x00, .vbank 0x00]

/-- `MODE1`: direct writes to bank 1 -/
def mode1Ops : List Instr := [.both 0x00, .vbank 0x80]

/-- `MODEBOTH`: direct writes to both banks; `VBANK` left as it is -/
def modebothOps : List Instr := [.both 0x80]

/-- Operations performed one after another, each seeing the complete effect of the earlier ones (R41 (a), (b)). -/
def perform : List Instr → State → Host.Outcome State Fault Refusal
  | [], s => .next s
  | i :: is, s =>
    match exec i s with
    | .next t => perform is t
    | .fault r => .fault r
    | .refused r => .refused r

end Sys2Proof.Machine
end

