-- ==== Sys2Proof/Safety.lean ====
section
/-! DEFINITION. What claims are stated in: the well-formed states, the pixel a stored nibble is, and what a display shows. -/

namespace Sys2Proof.Machine

/-- Every byte array and the working bitmap in canonical form and within the sizes of spec/00_scope.md R5. -/
abbrev Block.wf (b : Block) : Prop :=
  Memory.wf Param.bankSize b.vb0 ∧ Memory.wf Param.bankSize b.vb1 ∧
  Memory.wf Param.lowrowSize b.lr0 ∧ Memory.wf Param.lowrowSize b.lr1 ∧ Raster.wf b.wb

/-- An emitted raster, if there is one, is in canonical form. -/
abbrev Output.wf : Output → Prop
  | .nothing => True
  | .byte _ => True
  | .raster out => Raster.wf out

/-- The invariant of every step: all data of the state is in canonical form. -/
abbrev State.wf (s : State) : Prop :=
  s.blk.wf ∧ s.resetValue.wf ∧ Memory.wf Param.sprSize s.spr ∧
  (∀ q ∈ s.pending, Memory.wf Param.sprSize q.spr) ∧ s.output.wf

/-- The pixel value the banks hold for display `(x, y)`, `x < 256`, `24 <= y < 256`: the packing of spec/20_memory.md R34,
written from its own words and not from `locate`. -/
def Block.bankPixel (b : Block) (x y : Nat) : Nibble :=
  let r := y * 64 + x / 4 - 0x600
  let byte := if x / 2 % 2 = 1 then Memory.read b.vb1 r else Memory.read b.vb0 r
  if x % 2 = 1 then hi byte else lo byte

/-- What a display whose visible part is `v` shows at `(x, y)` of an emitted raster (decision D19): `Config.visible` is this
machine's, and no rule depends on it. -/
def displayed (v : Rect) (out : Raster) (x y : Nat) : Option Rgb :=
  if (v.left.toNat ≤ x ∧ x ≤ v.right.toNat) ∧ (v.top.toNat ≤ y ∧ y ≤ v.bottom.toNat) then
    some (Raster.read out x y)
  else none

end Sys2Proof.Machine
end

