-- ==== Sys2Proof/Certificates/Slice0/Obligations.lean ====
section
/-! DEFINITION. The statements for the provers. The helper definitions say rules of the spec in plain arithmetic, not through the
model's own operand and flag computations. -/

namespace Sys2Proof.Claims

open Sys2Proof.Machine

/-! ### What the statements are made of -/

/-- The block's inputs and its `ResetValue` are as before. -/
def portsKept (s t : State) : Prop :=
  t.resetValue = s.resetValue ∧ t.spr = s.spr ∧ t.pending = s.pending

/-- The five flag registers are as before. -/
def flagsKept (b c : Block) : Prop :=
  c.aix = b.aix ∧ c.aiy = b.aiy ∧ c.both = b.both ∧ c.vbank = b.vbank ∧ c.cbank = b.cbank

/-- The four byte arrays are as before. -/
def storesKept (b c : Block) : Prop :=
  c.vb0 = b.vb0 ∧ c.vb1 = b.vb1 ∧ c.lr0 = b.lr0 ∧ c.lr1 = b.lr1

/-- The colour of pixel value `v`: palette entry `v`, or `v + 0x20` when `CBANK[7]` is 1 (R100, `v <= 15`). -/
def pixelColour (b : Block) (v : Nat) : Rgb :=
  (b.pal[v + if 0x80 ≤ b.cbank.toNat then 0x20 else 0]?).getD black

/-- Byte `a` of the array holds `d`, every other byte is as before. -/
def byteStored (m m' : Memory) (a : Nat) (d : Byte) : Prop :=
  Memory.read m' a = d ∧ ∀ k, k ≠ a → Memory.read m' k = Memory.read m k

/-- One nibble of byte `a` holds `d[3:0]` (the high one when the column `x` is odd), the other nibble and every other byte are
as before (R85). -/
def nibbleStored (m m' : Memory) (a x : Nat) (d : Byte) : Prop :=
  (Memory.read m' a).toNat =
    (if x % 2 = 1 then 16 * (d.toNat % 16) + (Memory.read m a).toNat % 16
     else 16 * ((Memory.read m a).toNat / 16) + d.toNat % 16) ∧
  ∀ k, k ≠ a → Memory.read m' k = Memory.read m k

/-- What every PLOT does, whatever its row (R86): `P`, the paint at the old `(X, Y)` and nowhere else, the increments, and no
flag, no palette entry and not `dirty`. -/
def plotCommon (d : Byte) (b c : Block) : Prop :=
  c.p = d ∧
  c.x = (if b.aix.toNat < 0x80 then b.x + 1 else b.x) ∧
  c.y = (if b.aiy.toNat < 0x80 then b.y + 1 else b.y) ∧
  Raster.read c.wb b.x.toNat b.y.toNat = pixelColour b (d.toNat % 16) ∧
  (∀ x y, x < 256 → y < 256 → ¬ (x = b.x.toNat ∧ y = b.y.toNat) → Raster.read c.wb x y = Raster.read b.wb x y) ∧
  flagsKept b c ∧ c.pal = b.pal ∧ c.dirty = b.dirty

/-- What a direct window write leaves alone in every mode (R92). -/
def vwrKept (b c : Block) : Prop :=
  c.x = b.x ∧ c.y = b.y ∧ c.p = b.p ∧ flagsKept b c ∧ c.pal = b.pal ∧ c.dirty = b.dirty ∧ c.lr0 = b.lr0 ∧ c.lr1 = b.lr1

/-- The cells of row `y` whose column is in `los` have the colour of `lo(d)`, those in `his` the colour of `hi(d)`, every other
cell of the raster is as before. -/
def cellsPainted (b c : Block) (y : Nat) (los his : List Nat) (d : Byte) : Prop :=
  ∀ x' y', x' < 256 → y' < 256 →
    Raster.read c.wb x' y' =
      if y' = y ∧ x' ∈ los then pixelColour b (d.toNat % 16)
      else if y' = y ∧ x' ∈ his then pixelColour b (d.toNat / 16)
      else Raster.read b.wb x' y'

/-- The colour sprite `i` shows at `(x, y)`, none where it does not cover the cell or its pen there is 0 (R111, R113 and the
reference reading R115, decision D10: the spec's own choice, log entry 11). -/
def spriteColour (t : TileSet) (b : Block) (spr : Memory) (i x y : Nat) : Option Rgb :=
  let attr := (Memory.read spr (0x40 + i)).toNat
  let c : Int := x - (Memory.read spr (0x60 + i)).toNat
  let r : Int := y - (240 - (Memory.read spr i).toNat)
  let bank := 1 + if 0x80 ≤ b.cbank.toNat then 2 else 0
  if (0 ≤ c ∧ c ≤ t.lastCol) ∧ (0 ≤ r ∧ r ≤ t.lastRow) then
    let cs := if attr / 128 % 2 = 1 then t.lastCol - c.toNat else c.toNat
    let rs := if attr / 64 % 2 = 1 then t.lastRow - r.toNat else r.toNat
    let pen := (t.pen (Memory.read spr (0x20 + i)) cs rs).toNat
    if pen = 0 then none else b.pal[16 * bank + pen]?
  else none

/-- The two blocks differ at most in `P` and in bits 6 to 0 of the flag registers. -/
def alike (b c : Block) : Prop :=
  b.x = c.x ∧ b.y = c.y ∧ b.pal = c.pal ∧ b.dirty = c.dirty ∧ storesKept b c ∧ b.wb = c.wb ∧
  (0x80 ≤ b.aix.toNat ↔ 0x80 ≤ c.aix.toNat) ∧ (0x80 ≤ b.aiy.toNat ↔ 0x80 ≤ c.aiy.toNat) ∧
  (0x80 ≤ b.both.toNat ↔ 0x80 ≤ c.both.toNat) ∧ (0x80 ≤ b.vbank.toNat ↔ 0x80 ≤ c.vbank.toNat) ∧
  (0x80 ≤ b.cbank.toNat ↔ 0x80 ≤ c.cbank.toNat)

/-- Two states with the same inputs, the same `ResetValue` and the same output whose blocks differ at most so. -/
def statesAlike (s t : State) : Prop :=
  alike s.blk t.blk ∧ portsKept s t ∧ t.output = s.output

end Sys2Proof.Claims

open Sys2Proof Sys2Proof.Machine Sys2Proof.Claims

/-! ### Encoding and decoding -/

/-- The words written out in the tables of 30_encoding.md (R57) and 95_test_vectors.md (V-ENC) decode to the operations they
stand for, with ignored fields set too. -/
def Obligations.WordsOfTheSpecDecode : Prop :=
  decode 0x0000012#27 = .ok (.setx 0x12) ∧ decode 0x00001FF#27 = .ok (.sety 0xFF) ∧
  decode 0x0000205#27 = .ok (.plot 0x05) ∧ decode 0x2000000#27 = .ok .getx ∧ decode 0x2000100#27 = .ok .gety ∧
  decode 0x20002AB#27 = .ok .peek ∧ decode 0x03FFFFF#27 = .ok (.vwr 0x39FF 0xFF) ∧
  decode 0x0557F5A#27 = .ok (.pal 0x7F 0x5A) ∧ decode 0x0558080#27 = .ok (.aix 0x80) ∧
  decode 0x0558100#27 = .ok (.aiy 0x00) ∧ decode 0x0558480#27 = .ok (.both 0x80) ∧
  decode 0x0558680#27 = .ok (.vbank 0x80) ∧ decode 0x0558780#27 = .ok (.cbank 0x80) ∧
  decode 0x13FFFFF#27 = .ok (.vwr1 0x39FF 0xFF) ∧ decode 0x4ABCDEF#27 = .ok .frame ∧ decode 0x7FFFFFF#27 = .ok .reset ∧
  decode 0x0400000#27 = .error (.write 0x4000) ∧ decode 0x2060000#27 = .error (.read 0x0600)

/-- Every well-formed operation, with every operand, is what its word decodes to: no bit of an operand is dropped. -/
def Obligations.DecodeOfEncodeIsTheOperation : Prop :=
  ∀ i : Instr, i.wellFormed = true → decode (encode i) = .ok i

/-- A word that decodes is the word of a well-formed operation but for the fields its format ignores: a write has none, a read
ignores the datum, a strobe ignores address and datum. -/
def Obligations.EncodeOfDecodeIsTheWord : Prop :=
  ∀ (T : Word) (i : Instr), decode T = .ok i →
    i.wellFormed = true ∧ kindOf (encode i) = kindOf T ∧
    (kindOf T = 0b00#2 → encode i = T) ∧ (kindOf T = 0b01#2 → addrOf (encode i) = addrOf T)

/-- The decoder follows the match/mask/bounds table of R51: a word decodes to an operation exactly when it selects that
operation's row, and then it selects no other row. -/
def Obligations.DecodeFollowsTheMaskTable : Prop :=
  (∀ (T : Word) (i : Instr), decode T = .ok i →
    i.row ∈ opTable ∧ i.row.selects T = true ∧ ∀ row ∈ opTable, row.selects T = true → row = i.row) ∧
  (∀ (T : Word) (row : OpRow), row ∈ opTable → row.selects T = true → ∃ i, decode T = .ok i)

/-- The undecoded addresses of R52 and R53 are exactly the words the decoder rejects, each by its name. -/
def Obligations.RejectedWordsAreTheUndecodedOnes : Prop :=
  ∀ T : Word,
    ((∃ a, decode T = .error (.write a)) ↔
      kindOf T = 0b00#2 ∧
        let a := (addrOf T).toNat
        (0x00003 ≤ a ∧ a ≤ 0x005FF) ∨ (0x04000 ≤ a ∧ a ≤ 0x054FF) ∨ a = 0x05582 ∨ a = 0x05583 ∨ a = 0x05585 ∨
          (0x05588 ≤ a ∧ a ≤ 0x105FF) ∨ (0x14000 ≤ a ∧ a ≤ 0x1FFFF)) ∧
    ((∃ a, decode T = .error (.read a)) ↔ kindOf T = 0b01#2 ∧ 0x00003 ≤ (addrOf T).toNat)

/-! ### Steps -/

/-- A step with an operation presented takes its word and its sprite table off the environment's list and is exec of the
operation the word decodes to. -/
def Obligations.StepPerformsThePresentedOperation : Prop :=
  ∀ (s : State) (q : Presented) (rest : List Presented) (i : Instr), s.pending = q :: rest → decode q.word = .ok i →
    step s = exec i { s with pending := rest, spr := q.spr }

/-- A presented word that selects no row is taken off the list and changes nothing else: no state of the block, and the block
gives nothing to the outside (for a read: no byte). -/
def Obligations.UndecodedAccessChangesNothing : Prop :=
  ∀ (s : State) (q : Presented) (rest : List Presented) (e : Undecoded), s.pending = q :: rest → decode q.word = .error e →
    step s = .next { s with pending := rest, spr := q.spr, output := .nothing }

/-- With nothing presented a step changes nothing. -/
def Obligations.BlockNeverInitiatesAnOperation : Prop :=
  ∀ s : State, s.pending = [] → step s = .next s

/-- R120: no operation faults, traps or is rejected, in any state; there is no fault to raise. Three clauses are the model's
choice and not R120's: that a step presenting an undecoded access goes on, where R53 and U10 also offer a refusal (log entry 8),
that a step with nothing presented is idle (log entry 4), and that a VWR or VWR1 term with an offset above 0x39FF, which no word
decodes to, goes on (log entry 18). -/
def Obligations.EveryOperationRunsToCompletion : Prop :=
  (∀ (i : Instr) (s : State), ∃ t, exec i s = .next t) ∧ (∀ s : State, ∃ t, step s = .next t) ∧ (Fault → False)

/-- What the host places as the next instruction is the next operation a step performs. -/
def Obligations.PlacedWordIsPerformedNext : Prop :=
  ∀ (s : State) (i : Instr), i.wellFormed = true →
    step (s.withFetchWord 32 (encode i).toNat) = exec i s

/-! ### The flag registers -/

/-- R61: the bus write of 0x5580 stores the whole byte in `AIX` and changes nothing else; a value below 0x80 makes every PLOT
advance `X` by one, any other value keeps `X` through any number of PLOTs. -/
def Obligations.AixWriteStoresAndGates : Prop :=
  ∀ (d : Byte) (s : State),
    decode (BusOp.wr 0x5580 d).pack = .ok (.aix d) ∧
    exec (.aix d) s = .next { s with blk := { s.blk with aix := d }, output := .nothing } ∧
    ∀ ds : List Byte, ∃ t, perform (.aix d :: ds.map Instr.plot) s = .next t ∧
      t.blk.x = (if d.toNat < 0x80 then s.blk.x + BitVec.ofNat 8 ds.length else s.blk.x)

/-- R62: the bus write of 0x5581 stores the whole byte in `AIY` and changes nothing else; a value below 0x80 makes every PLOT
advance `Y` by one, any other value keeps `Y`; what `X` does is decided by `AIX` alone. -/
def Obligations.AiyWriteStoresAndGates : Prop :=
  ∀ (d : Byte) (s : State),
    decode (BusOp.wr 0x5581 d).pack = .ok (.aiy d) ∧
    exec (.aiy d) s = .next { s with blk := { s.blk with aiy := d }, output := .nothing } ∧
    ∀ ds : List Byte, ∃ t, perform (.aiy d :: ds.map Instr.plot) s = .next t ∧
      t.blk.y = (if d.toNat < 0x80 then s.blk.y + BitVec.ofNat 8 ds.length else s.blk.y) ∧
      t.blk.x = (if s.blk.aix.toNat < 0x80 then s.blk.x + BitVec.ofNat 8 ds.length else s.blk.x)

/-- R60, R63 to R65: the writes of `BOTH`, `VBANK` and `CBANK` store the whole byte and change nothing else: no bank byte, no
cell, no palette entry, not `dirty`, no coordinate. -/
def Obligations.BankFlagWritesStoreTheByte : Prop :=
  ∀ (d : Byte) (s : State),
    exec (.both d) s = .next { s with blk := { s.blk with both := d }, output := .nothing } ∧
    exec (.vbank d) s = .next { s with blk := { s.blk with vbank := d }, output := .nothing } ∧
    exec (.cbank d) s = .next { s with blk := { s.blk with cbank := d }, output := .nothing } ∧
    decode (BusOp.wr 0x5584 d).pack = .ok (.both d) ∧ decode (BusOp.wr 0x5586 d).pack = .ok (.vbank d) ∧
    decode (BusOp.wr 0x5587 d).pack = .ok (.cbank d)

/-- R149: a `CBANK` write requests no rebuild: a FRAME right after it, with `dirty` clear before, shows the old bitmap. -/
def Obligations.CbankWriteRequestsNoRebuild : Prop :=
  ∀ (d : Byte) (s : State), s.blk.dirty = false →
    ∃ t, perform [.cbank d, .frame] s = .next t ∧ t.blk = { s.blk with cbank := d }

/-! ### palette_decoder -/

/-- The palette register write replaces the entry of slot `o[5:0]` by the weighted inverted bits, sets `dirty`, and changes
nothing else. The order of the bits in the red and green groups is the spec's decision D16 (log entry 14). -/
def Obligations.PalWritesTheDecodedEntry : Prop :=
  ∀ (o : BitVec 7) (d : Byte) (s : State), ∃ t c,
    exec (.pal o d) s = .next t ∧ t = { s with blk := { s.blk with pal := t.blk.pal, dirty := true }, output := .nothing } ∧
    t.blk.pal[o.toNat % 64]? = some c ∧
    (∀ k, k ≠ o.toNat % 64 → t.blk.pal[k]? = s.blk.pal[k]?) ∧
    c.red.toNat = 0x21 * (1 - d.toNat / 32 % 2) + 0x47 * (1 - d.toNat / 64 % 2) + 0x97 * (1 - d.toNat / 128 % 2) ∧
    c.green.toNat = 0x21 * (1 - d.toNat / 4 % 2) + 0x47 * (1 - d.toNat / 8 % 2) + 0x97 * (1 - d.toNat / 16 % 2) ∧
    c.blue.toNat = 0x21 * (1 - d.toNat % 2) + 0x47 * (1 - d.toNat / 2 % 2) + 0x97 * (1 - o.toNat / 64 % 2) ∧
    decode (BusOp.wr (BitVec.ofNat 17 (0x5500 + o.toNat)) d).pack = .ok (.pal o d)

/-- R76: two palette writes give the same triple exactly when they agree in the datum and in bit 6 of the offset (bit order as
decision D16). -/
def Obligations.PaletteTriplesAreDistinct : Prop :=
  ∀ (o o' : BitVec 7) (d d' : Byte),
    decodeColour o d = decodeColour o' d' ↔ d = d' ∧ o.toNat / 64 = o'.toNat / 64

/-- R20, R73: every component the decoder writes is one of the eight values, and R75 (a), (b) with the end-to-end example S7. -/
def Obligations.PaletteComponentsAreTheEightValues : Prop :=
  (∀ b0 b1 b2 : Bool, weigh b0 b1 b2 ∈ [0x00#8, 0x21#8, 0x47#8, 0x68#8, 0x97#8, 0xB8#8, 0xDE#8, 0xFF#8]) ∧
  decodeColour 0x00 0xFF = ⟨0x00, 0x00, 0x97⟩ ∧ decodeColour 0x40 0xFF = ⟨0x00, 0x00, 0x00⟩ ∧
  decodeColour 0x00 0x00 = ⟨0xFF, 0xFF, 0xFF⟩ ∧ decodeColour 0x40 0x00 = ⟨0xFF, 0xFF, 0x68⟩

/-- R74: after any palette writes, at least one of them, `dirty` is set whatever their values; the next FRAME rebuilds once,
with the palette as it then is, and clears `dirty`; a further FRAME finds nothing to rebuild. -/
def Obligations.PaletteWritesCauseOneRebuild : Prop :=
  ∀ (p : BitVec 7 × Byte) (ps : List (BitVec 7 × Byte)) (s : State), ∃ t1 t2 t3,
    perform ((p :: ps).map fun q => Instr.pal q.1 q.2) s = .next t1 ∧ t1.blk.dirty = true ∧ t1.blk.wb = s.blk.wb ∧
    exec .frame t1 = .next t2 ∧ t2.blk.wb = t1.blk.rebuild.wb ∧ t2.blk.dirty = false ∧
    exec .frame t2 = .next t3 ∧ t3.blk = t2.blk

/-! ### The indexed port -/

/-- R83: the bus write of 0x0000 stores the datum in `X` unchanged and changes nothing else. -/
def Obligations.SetxOnlyMovesTheCursor : Prop :=
  ∀ (d : Byte) (s : State), decode (BusOp.wr 0x0000 d).pack = .ok (.setx d) ∧
    exec (.setx d) s = .next { s with blk := { s.blk with x := d }, output := .nothing }

/-- R84: the bus write of 0x0001 stores the datum in `Y` unchanged and changes nothing else. -/
def Obligations.SetyOnlyMovesTheCursor : Prop :=
  ∀ (d : Byte) (s : State), decode (BusOp.wr 0x0001 d).pack = .ok (.sety d) ∧
    exec (.sety d) s = .next { s with blk := { s.blk with y := d }, output := .nothing }

/-- R87: the bus read of 0x0000 returns `X` and changes nothing; after `SETX 0xFF` and one PLOT with X auto-increment enabled it
returns 0x00. -/
def Obligations.GetxReturnsX : Prop :=
  (∀ s : State, exec .getx s = .next { s with output := .byte s.blk.x }) ∧
  (∀ d : Byte, decode (BusOp.rd 0x0000).pack = .ok .getx ∧ decode (packWord 0b01 0x0000 d) = .ok .getx) ∧
  (∀ (s : State) (d : Byte), s.blk.aix.toNat < 0x80 →
    ∃ t, perform [.setx 0xFF, .plot d, .getx] s = .next t ∧ t.output = .byte 0x00)

/-- R88: the bus read of 0x0001 returns `Y`, auto-increments included, and changes nothing; after `SETY 0x17` it returns 0x17. -/
def Obligations.GetyReturnsY : Prop :=
  (∀ s : State, exec .gety s = .next { s with output := .byte s.blk.y }) ∧
  (∀ d : Byte, decode (BusOp.rd 0x0001).pack = .ok .gety ∧ decode (packWord 0b01 0x0001 d) = .ok .gety) ∧
  (∀ s : State, ∃ t, perform [.sety 0x17, .gety] s = .next t ∧ t.output = .byte 0x17) ∧
  (∀ (s : State) (d : Byte), s.blk.aiy.toNat < 0x80 →
    ∃ t, perform [.sety 0xFF, .plot d, .gety] s = .next t ∧ t.output = .byte 0x00)

/-- PEEK returns 0 in rows 0 to 11, the low-row nibble in rows 12 to 23 and the bank nibble of R34 in rows 24 to 255, the high
nibble of the byte 0, and changes nothing. That it does not increment is decision D13 (log entry 12), the storage of rows 12
to 23 is decision D3 (log entry 9). -/
def Obligations.PeekReturnsTheStoredPixel : Prop :=
  ∀ s : State, ∃ v : Byte, exec .peek s = .next { s with output := .byte v } ∧
    let x := s.blk.x.toNat
    let y := s.blk.y.toNat
    let low := Memory.read (if x / 2 % 2 = 1 then s.blk.lr1 else s.blk.lr0) (y * 64 + x / 4 - 0x300)
    v.toNat =
      if y < 12 then 0
      else if y < 24 then (if x % 2 = 1 then low.toNat / 16 else low.toNat % 16)
      else (s.blk.bankPixel x y).toNat

/-- PLOT in rows 0 to 11 paints, moves the cursor as the flags say, and changes no stored byte. -/
def Obligations.PlotInTopRowsStoresNothing : Prop :=
  ∀ (d : Byte) (s : State), s.blk.y.toNat < 12 → ∃ t, exec (.plot d) s = .next t ∧
    t.output = .nothing ∧ portsKept s t ∧ plotCommon d s.blk t.blk ∧ storesKept s.blk t.blk

/-- PLOT in rows 12 to 23 stores its nibble in the low-row array that bit 1 of `X` selects (decision D3, log entry 9). -/
def Obligations.PlotInLowRowsStoresInTheLowRowArrays : Prop :=
  ∀ (d : Byte) (s : State), 12 ≤ s.blk.y.toNat → s.blk.y.toNat < 24 → ∃ t, exec (.plot d) s = .next t ∧
    t.output = .nothing ∧ portsKept s t ∧ plotCommon d s.blk t.blk ∧ t.blk.vb0 = s.blk.vb0 ∧ t.blk.vb1 = s.blk.vb1 ∧
    let x := s.blk.x.toNat
    let a := s.blk.y.toNat * 64 + x / 4 - 0x300
    if x / 2 % 2 = 1 then nibbleStored s.blk.lr1 t.blk.lr1 a x d ∧ t.blk.lr0 = s.blk.lr0
    else nibbleStored s.blk.lr0 t.blk.lr0 a x d ∧ t.blk.lr1 = s.blk.lr1

/-- PLOT in rows 24 to 255 stores its nibble in the bank that bit 1 of `X` selects, whatever `BOTH` and `VBANK` hold. -/
def Obligations.PlotInBankRowsStoresInTheBank : Prop :=
  ∀ (d : Byte) (s : State), 24 ≤ s.blk.y.toNat → ∃ t, exec (.plot d) s = .next t ∧
    t.output = .nothing ∧ portsKept s t ∧ plotCommon d s.blk t.blk ∧ t.blk.lr0 = s.blk.lr0 ∧ t.blk.lr1 = s.blk.lr1 ∧
    let x := s.blk.x.toNat
    let a := s.blk.y.toNat * 64 + x / 4 - 0x600
    a < 0x3A00 ∧
    if x / 2 % 2 = 1 then nibbleStored s.blk.vb1 t.blk.vb1 a x d ∧ t.blk.vb0 = s.blk.vb0
    else nibbleStored s.blk.vb0 t.blk.vb0 a x d ∧ t.blk.vb1 = s.blk.vb1

/-- R79: a pixel plotted at `(x, y)`, `y >= 12`, with both increments disabled, reads back as the low nibble written (rows 12 to
23: decision D3). -/
def Obligations.PlottedPixelReadsBack : Prop :=
  ∀ (x y d : Byte) (s : State), 12 ≤ y.toNat → 0x80 ≤ s.blk.aix.toNat → 0x80 ≤ s.blk.aiy.toNat →
    ∃ t, perform (plotxyOps x y d ++ [.peek]) s = .next t ∧ t.output = .byte (d &&& 0x0F)

/-- R85: a nibble write puts the value in its nibble and leaves every other nibble of every array as it was. -/
def Obligations.NibbleWriteMerges : Prop :=
  ∀ (b : Block) (q q' : Spot) (v : Nibble),
    (b.nibWrite q v).nibRead q = v ∧ (q' ≠ q → (b.nibWrite q v).nibRead q' = b.nibRead q') ∧
    (b.nibWrite q v).memRead q.store q.index =
      (if q.high then joinNibbles v (lo (b.memRead q.store q.index)) else joinNibbles (hi (b.memRead q.store q.index)) v) ∧
    b.nibRead q = (if q.high then hi (b.memRead q.store q.index) else lo (b.memRead q.store q.index))

/-- R80, R81: the indexed port's nibble of a pixel in rows 24 to 255 is the nibble the packing of R34 assigns to it, inside the
bank. -/
def Obligations.LocateAgreesWithThePacking : Prop :=
  ∀ (b : Block) (x y : Byte), 24 ≤ y.toNat →
    b.nibRead (locate x y) = b.bankPixel x.toNat y.toNat ∧ (locate x y).index < 0x3A00 ∧
    ((locate x y).store = .vb0 ∨ (locate x y).store = .vb1)

/-! ### dual_bank_pixel_writer -/

/-- R92: the direct window write, mode by mode: the banks written, the cells painted, and everything left alone. -/
def Obligations.VwrWritesAndPaintsByMode : Prop :=
  ∀ (r : BitVec 14) (d : Byte) (s : State), r.toNat < 0x3A00 →
    decode (BusOp.wr (BitVec.ofNat 17 (0x600 + r.toNat)) d).pack = .ok (.vwr r d) ∧
    ∃ t, exec (.vwr r d) s = .next t ∧ t.output = .nothing ∧ portsKept s t ∧ vwrKept s.blk t.blk ∧
    let y := (r.toNat + 0x600) / 64
    let x0 := (r.toNat + 0x600) % 64 * 4
    if 0x80 ≤ s.blk.both.toNat then
      byteStored s.blk.vb0 t.blk.vb0 r.toNat d ∧ byteStored s.blk.vb1 t.blk.vb1 r.toNat d ∧
      cellsPainted s.blk t.blk y [x0, x0 + 2] [x0 + 1, x0 + 3] d
    else if 0x80 ≤ s.blk.vbank.toNat then
      t.blk.vb0 = s.blk.vb0 ∧ byteStored s.blk.vb1 t.blk.vb1 r.toNat d ∧
      cellsPainted s.blk t.blk y [x0 + 2] [x0 + 3] d
    else
      byteStored s.blk.vb0 t.blk.vb0 r.toNat d ∧ t.blk.vb1 = s.blk.vb1 ∧
      cellsPainted s.blk t.blk y [x0] [x0 + 1] d

/-- R94: fan-out leaves both banks equal to the byte at the offset; a single-bank write leaves the other bank as it was; no other
offset of either bank changes. -/
def Obligations.FanOutAndSingleBankIsolation : Prop :=
  ∀ (r : BitVec 14) (d : Byte) (s : State), r.toNat < 0x3A00 → ∃ t, exec (.vwr r d) s = .next t ∧
    (0x80 ≤ s.blk.both.toNat → Memory.read t.blk.vb0 r.toNat = d ∧ Memory.read t.blk.vb1 r.toNat = d) ∧
    (s.blk.both.toNat < 0x80 → 0x80 ≤ s.blk.vbank.toNat →
      Memory.read t.blk.vb0 r.toNat = Memory.read s.blk.vb0 r.toNat ∧ Memory.read t.blk.vb1 r.toNat = d) ∧
    (s.blk.both.toNat < 0x80 → s.blk.vbank.toNat < 0x80 →
      Memory.read t.blk.vb0 r.toNat = d ∧ Memory.read t.blk.vb1 r.toNat = Memory.read s.blk.vb1 r.toNat) ∧
    ∀ k, k ≠ r.toNat →
      Memory.read t.blk.vb0 k = Memory.read s.blk.vb0 k ∧ Memory.read t.blk.vb1 k = Memory.read s.blk.vb1 k

/-- R96 as decision D9 reads it (log entry 10): the bank-1 window stores the byte in `VB1` and changes nothing else; no cell is
painted. -/
def Obligations.Vwr1StoresWithoutPainting : Prop :=
  ∀ (r : BitVec 14) (d : Byte) (s : State), r.toNat < 0x3A00 →
    decode (BusOp.wr (BitVec.ofNat 17 (0x10600 + r.toNat)) d).pack = .ok (.vwr1 r d) ∧
    ∃ t, exec (.vwr1 r d) s = .next t ∧
      t = { s with blk := { s.blk with vb1 := t.blk.vb1 }, output := .nothing } ∧
      byteStored s.blk.vb1 t.blk.vb1 r.toNat d

/-- An offset above 0x39FF is no address of either window, and such a term changes nothing in the block (R52). -/
def Obligations.OffsetsOutsideTheWindowChangeNothing : Prop :=
  ∀ (r : BitVec 14) (d : Byte) (s : State), 0x3A00 ≤ r.toNat →
    (Instr.vwr r d).wellFormed = false ∧ (Instr.vwr1 r d).wellFormed = false ∧
    exec (.vwr r d) s = .next { s with output := .nothing } ∧ exec (.vwr1 r d) s = .next { s with output := .nothing }

/-- R95, R34: a byte stored through the direct window is read back by the indexed port at the columns where it is displayed:
nibble by nibble, columns 0 and 1 of the group from bank 0, columns 2 and 3 from bank 1. -/
def Obligations.WindowAndIndexedPortAgree : Prop :=
  ∀ (r : BitVec 14) (d : Byte) (c : Nat) (s : State), r.toNat < 0x3A00 → c < 4 →
    (0x80 ≤ s.blk.both.toNat ∨ (0x80 ≤ s.blk.vbank.toNat ↔ 2 ≤ c)) →
    ∃ t, perform [.vwr r d, .setx (BitVec.ofNat 8 ((r.toNat + 0x600) % 64 * 4 + c)),
        .sety (BitVec.ofNat 8 ((r.toNat + 0x600) / 64)), .peek] s = .next t ∧
      t.output = .byte (if c % 2 = 1 then BitVec.ofNat 8 (d.toNat / 16) else BitVec.ofNat 8 (d.toNat % 16))

/-! ### rgb_framebuffer_builder -/

/-- FRAME (R105, with R102 and R103 in closed form): when `dirty` was set every cell of rows 24 to 255 takes the colour of the
pixel the banks hold for it, rows 0 to 23 are not touched; when it was clear `WB` is not touched; `dirty` is clear after; no
other item of the block changes; a raster is emitted. -/
def Obligations.FrameRebuildsRows24To255 : Prop :=
  ∀ s : State, ∃ t out, exec .frame s = .next t ∧ t.output = .raster out ∧ portsKept s t ∧
    t.blk = { s.blk with wb := t.blk.wb, dirty := false } ∧
    (s.blk.dirty = false → t.blk.wb = s.blk.wb) ∧
    (s.blk.dirty = true → ∀ x y, x < 256 → y < 256 →
      Raster.read t.blk.wb x y =
        if 24 ≤ y then pixelColour s.blk (s.blk.bankPixel x y).toNat else Raster.read s.blk.wb x y)

/-- Steps 2 and 3 of R105 with R114, R116: each cell of the emitted raster has the colour of the highest-numbered of the 20
sprites that shows there, and the working bitmap's colour where none does. What one sprite shows is the reference reading
R115 (decision D10: the spec's own choice, log entry 11), for whatever tile data the machine has. -/
def Obligations.FrameShowsTheTopmostSprite : Prop :=
  ∀ s : State, ∃ t out, exec .frame s = .next t ∧ t.output = .raster out ∧
    ∀ x y, x < 256 → y < 256 →
      Raster.read out x y =
        (((List.range 20).reverse.findSome? fun i => spriteColour Config.tiles t.blk s.spr i x y)).getD
          (Raster.read t.blk.wb x y)

/-- R107 (e): two FRAMEs in a row with the same sprite table emit the same raster, and the second changes no state of the block. -/
def Obligations.SecondFrameEmitsTheSameRaster : Prop :=
  ∀ s : State, ∃ t u, exec .frame s = .next t ∧ exec .frame t = .next u ∧ u.output = t.output ∧ u.blk = t.blk

/-- R110, R112, R117, R118 (f): whatever the sprite table, the block after a FRAME is the same, and the emitted raster depends
on the table only through the 20 Y bytes, tile bytes and X bytes and bits 7 and 6 of the 20 attribute bytes (that the blank
flags have no effect is decision D10, log entry 11). -/
def Obligations.FrameReadsOnlyTheDescriptors : Prop :=
  ∀ (s : State) (spr : Memory), ∃ t u, exec .frame s = .next t ∧ exec .frame { s with spr := spr } = .next u ∧
    u.blk = t.blk ∧
    ((∀ i, i < 20 → Memory.read spr i = Memory.read s.spr i ∧
      Memory.read spr (0x20 + i) = Memory.read s.spr (0x20 + i) ∧
      Memory.read spr (0x60 + i) = Memory.read s.spr (0x60 + i) ∧
      (Memory.read spr (0x40 + i)).toNat / 64 = (Memory.read s.spr (0x40 + i)).toNat / 64) →
    u.output = t.output)

/-- R100, R101: the palette index of a painted pixel is the pixel value, plus 0x20 when `CBANK[7]` is 1; the clamp never changes
it (decision D15); a sprite pen's entry is `16 * (1 + 2 * CBANK[7]) + pen` (R113). -/
def Obligations.PaletteBanksOfPixelsAndSprites : Prop :=
  ∀ (cbank : Byte) (v : Nibble),
    (bitmapIndex cbank v).val = v.toNat + (if 0x80 ≤ cbank.toNat then 0x20 else 0) ∧ (bitmapIndex cbank v).val ≤ 0x2F ∧
    (bankIndex (spriteBank cbank) v).val = 16 * (1 + if 0x80 ≤ cbank.toNat then 2 else 0) + v.toNat

/-! ### sprite_compositor -/

/-- R110, R111: the decoded descriptor of sprite `i`; its Y position is computed in the integers and lies in -15 to 240. -/
def Obligations.SpriteDescriptorDecode : Prop :=
  ∀ (spr : Memory) (i : Nat), i < 20 →
    let q := decodeSprite spr i
    let attr := (Memory.read spr (0x40 + i)).toNat
    q.tile = Memory.read spr (0x20 + i) ∧ q.sx = (Memory.read spr (0x60 + i)).toNat ∧
    q.sy = 240 - ((Memory.read spr (0x00 + i)).toNat : Int) ∧ -15 ≤ q.sy ∧ q.sy ≤ 240 ∧
    (q.xflip = true ↔ attr / 128 % 2 = 1) ∧ (q.yflip = true ↔ attr / 64 % 2 = 1) ∧
    (q.rblank = true ↔ attr / 32 % 2 = 1) ∧ (q.lblank = true ↔ attr / 16 % 2 = 1)

/-- The reference reading of `DrawTile` (R115, decision D10: the spec's own choice, log entry 11), its two loops in closed form:
a cell the tile covers with an opaque pen takes that pen's entry of the bank, every other cell is as it was. -/
def Obligations.DrawTileClosedForm : Prop :=
  ∀ (t : TileSet) (pal : Fin 64 → Rgb) (out : Raster) (tile : Byte) (bank : Fin 4) (xflip yflip : Bool) (x y : Int)
    (tpen : Nibble) (px py : Nat), px < 256 → py < 256 →
    let c := (px : Int) - x
    let r := (py : Int) - y
    let pen := t.pen tile (if xflip then t.lastCol - c.toNat else c.toNat) (if yflip then t.lastRow - r.toNat else r.toNat)
    Raster.read (drawTile t pal out tile bank xflip yflip x y tpen) px py =
      if (0 ≤ c ∧ c ≤ t.lastCol) ∧ (0 ≤ r ∧ r ≤ t.lastRow) ∧ pen ≠ tpen then pal (bankIndex bank pen)
      else Raster.read out px py

/-! ### Reset -/

/-- RESET gives every item of the block its `ResetValue`, emits nothing and reads nothing, for every assignment; a second RESET
changes nothing more. The operation and its fixed assignment are decisions D18 and D5 (log entry 2). -/
def Obligations.ResetRestoresTheAssignment : Prop :=
  (∀ s : State, exec .reset s = .next { s with blk := s.resetValue, output := .nothing }) ∧
  (∀ (a : BusAddr) (d : Byte), decode (packWord 0b11 a d) = .ok .reset) ∧
  (∀ s : State, ∃ t, exec .reset s = .next t ∧ exec .reset t = .next t)

/-- The state after reset is well formed, for every well-formed assignment and for the one the model names (log entry 1). -/
def Obligations.ResetStateIsWellFormed : Prop :=
  State.reset.wf ∧ ∀ rv : Block, rv.wf → (State.afterReset rv).wf ∧ (State.afterReset rv).blk = rv

/-- No step changes the assignment: two resets give the same state (R140 (c), decision D5). -/
def Obligations.ResetValueNeverChanges : Prop :=
  ∀ s t : State, step s = .next t → t.resetValue = s.resetValue

/-! ### The whole machine -/

/-- Every byte array, the working bitmap and the emitted raster keep their canonical form and their sizes through every step:
no access falls outside its storage. -/
def Obligations.StepKeepsCanonicalForm : Prop :=
  ∀ s t : State, s.wf → step s = .next t → t.wf

/-- The "Written by" column of 10_state.md: an operation other than RESET changes an item only if the table names it as a writer;
`dirty` is set only by PAL and cleared only by FRAME (R21). -/
def Obligations.OnlyTheNamedWritersChangeAnItem : Prop :=
  ∀ (i : Instr) (s t : State), exec i s = .next t → i ≠ .reset →
    (t.blk.x ≠ s.blk.x → (∃ d, i = .setx d) ∨ ∃ d, i = .plot d) ∧
    (t.blk.y ≠ s.blk.y → (∃ d, i = .sety d) ∨ ∃ d, i = .plot d) ∧
    (t.blk.p ≠ s.blk.p → ∃ d, i = .plot d) ∧
    (t.blk.aix ≠ s.blk.aix → ∃ d, i = .aix d) ∧ (t.blk.aiy ≠ s.blk.aiy → ∃ d, i = .aiy d) ∧
    (t.blk.both ≠ s.blk.both → ∃ d, i = .both d) ∧ (t.blk.vbank ≠ s.blk.vbank → ∃ d, i = .vbank d) ∧
    (t.blk.cbank ≠ s.blk.cbank → ∃ d, i = .cbank d) ∧
    (t.blk.pal ≠ s.blk.pal → ∃ o d, i = .pal o d) ∧
    (t.blk.dirty ≠ s.blk.dirty → (∃ o d, i = .pal o d ∧ t.blk.dirty = true) ∨ (i = .frame ∧ t.blk.dirty = false)) ∧
    (t.blk.vb0 ≠ s.blk.vb0 → (∃ d, i = .plot d) ∨ ∃ r d, i = .vwr r d) ∧
    (t.blk.vb1 ≠ s.blk.vb1 → (∃ d, i = .plot d) ∨ (∃ r d, i = .vwr r d) ∨ ∃ r d, i = .vwr1 r d) ∧
    (t.blk.lr0 ≠ s.blk.lr0 → ∃ d, i = .plot d) ∧ (t.blk.lr1 ≠ s.blk.lr1 → ∃ d, i = .plot d) ∧
    (t.blk.wb ≠ s.blk.wb → (∃ d, i = .plot d) ∨ (∃ r d, i = .vwr r d) ∨ i = .frame)

/-- R38: the three reads change no state of the block; SETX, SETY, the flag writes, VWR, VWR1 and PAL done twice in a row leave
what they leave once (in every well-formed state); a PLOT with an increment enabled moves its coordinate. -/
def Obligations.ReadsAreFreeAndWritesIdempotent : Prop :=
  (∀ (i : Instr) (s t : State), i = .getx ∨ i = .gety ∨ i = .peek → exec i s = .next t → t.blk = s.blk) ∧
  (∀ (i : Instr) (s t : State), s.wf → exec i s = .next t →
    ((∃ d, i = .setx d ∨ i = .sety d ∨ i = .aix d ∨ i = .aiy d ∨ i = .both d ∨ i = .vbank d ∨ i = .cbank d) ∨
      (∃ r d, i = .vwr r d ∨ i = .vwr1 r d) ∨ ∃ o d, i = .pal o d) →
    exec i t = .next t) ∧
  (∀ (d : Byte) (s t : State), exec (.plot d) s = .next t →
    (s.blk.aix.toNat < 0x80 → t.blk.x ≠ s.blk.x) ∧ (s.blk.aiy.toNat < 0x80 → t.blk.y ≠ s.blk.y))

/-- R13, R14: `P` and bits 6 to 0 of the flag registers are unobservable: two states that differ only there step alike and give
the same output at every step (decisions D12 and D13, log entries 12 and 17). -/
def Obligations.PixelRegisterAndLowFlagBitsAreUnobservable : Prop :=
  ∀ s s' t : State, statesAlike s s' → step s = .next t → ∃ t', step s' = .next t' ∧ statesAlike t t'
end

