-- ==== Sys2Proof/Laws/Bits.lean ====
section
/-! SUPPORT. Nibbles, the top bit, and the ranges of the coordinate translations. -/

namespace Sys2Proof.Machine

theorem lo_toNat (b : Byte) : (lo b).toNat = b.toNat % 16 := by
  simp [lo, BitVec.extractLsb'_toNat]

theorem hi_toNat (b : Byte) : (hi b).toNat = b.toNat / 16 := by
  have := b.isLt
  simp [hi, BitVec.extractLsb'_toNat, Nat.shiftRight_eq_div_pow]
  omega

theorem joinNibbles_toNat (h l : Nibble) : (joinNibbles h l).toNat = 16 * h.toNat + l.toNat := by
  have := h.isLt
  have := l.isLt
  simp [joinNibbles]
  omega

@[simp] theorem lo_joinNibbles (h l : Nibble) : lo (joinNibbles h l) = l := by
  have := l.isLt
  apply BitVec.eq_of_toNat_eq
  rw [lo_toNat, joinNibbles_toNat]
  omega

@[simp] theorem hi_joinNibbles (h l : Nibble) : hi (joinNibbles h l) = h := by
  have := l.isLt
  apply BitVec.eq_of_toNat_eq
  rw [hi_toNat, joinNibbles_toNat]
  omega

@[simp] theorem joinNibbles_hi_lo (b : Byte) : joinNibbles (hi b) (lo b) = b := by
  apply BitVec.eq_of_toNat_eq
  rw [joinNibbles_toNat, hi_toNat, lo_toNat]
  omega

@[simp] theorem zext8_toNat (v : Nibble) : (zext8 v).toNat = v.toNat := by
  have := v.isLt
  simp [zext8]
  omega

/-- The merged byte holds the new nibble where it was asked for and the old one beside it (R85). -/
theorem lo_mergeNibble (old : Byte) (high : Bool) (v : Nibble) :
    lo (mergeNibble old high v) = if high then lo old else v := by
  cases high <;> simp [mergeNibble]

theorem hi_mergeNibble (old : Byte) (high : Bool) (v : Nibble) :
    hi (mergeNibble old high v) = if high then v else hi old := by
  cases high <;> simp [mergeNibble]

/-- R9: the top bit is set exactly when the byte's value is 0x80 or more. -/
theorem topBit_iff (v : Byte) : topBit v = true ↔ 0x80 ≤ v.toNat := by
  unfold topBit
  revert v
  decide

theorem bit0_iff (v : Byte) : v.getLsbD 0 = true ↔ v.toNat % 2 = 1 := by
  revert v
  decide

theorem bit1_iff (v : Byte) : v.getLsbD 1 = true ↔ v.toNat / 2 % 2 = 1 := by
  revert v
  decide

/-! ### Coordinates as plain arithmetic -/

theorem videoAddress_eq (x y : Byte) : videoAddress x y = y.toNat * 64 + x.toNat / 4 := by
  simp [videoAddress, Nat.shiftLeft_eq, Nat.shiftRight_eq_div_pow]

theorem windowRow_eq (r : Nat) : windowRow r = (r + 0x600) / 64 := by
  simp [windowRow, Nat.shiftRight_eq_div_pow]

theorem windowCol_eq (r : Nat) : windowCol r = (r + 0x600) % 64 * 4 := by
  have : (r + 0x600) &&& 0x3F = (r + 0x600) % 64 := Nat.and_two_pow_sub_one_eq_mod (r + 0x600) 6
  simp [windowCol, Nat.shiftLeft_eq, this]

/-- The cells of a window offset lie in rows 24 to 255 and four columns of the raster (R90). -/
theorem window_range {r : Nat} (hr : r < Param.bankSize) :
    24 ≤ windowRow r ∧ windowRow r ≤ 255 ∧ windowCol r + 3 ≤ 255 ∧ windowCol r % 4 = 0 ∧
      r = windowRow r * 64 + windowCol r / 4 - 0x600 := by
  rw [windowRow_eq, windowCol_eq]
  simp only [Param.bankSize] at hr
  omega

/-- Cells of the raster are told apart by their keys. -/
theorem cellKey_inj {x y x' y' : Nat} (hx : x < 256) (hx' : x' < 256) :
    cellKey x y = cellKey x' y' ↔ x = x' ∧ y = y' := by
  simp only [cellKey, Param.wbW]
  omega

theorem cellKey_lt {x y : Nat} (hx : x < 256) (hy : y < 256) : cellKey x y < Param.wbW * Param.wbH := by
  simp only [cellKey, Param.wbW, Param.wbH]
  omega

/-! ### Where `locate` points -/

/-- Rows 24 to 255: the bank bit 1 of `x` selects, at the offset of R81. -/
theorem locate_bank {x y : Byte} (hy : 24 ≤ y.toNat) :
    locate x y = { store := if x.getLsbD 1 then .vb1 else .vb0
                   index := y.toNat * 64 + x.toNat / 4 - 0x600
                   high := x.getLsbD 0 } := by
  have h : Param.winBase ≤ videoAddress x y := by
    rw [videoAddress_eq]
    simp only [Param.winBase]
    omega
  rw [locate, if_pos h, videoAddress_eq]

/-- Rows 12 to 23: the low-row array bit 1 of `x` selects (R82). -/
theorem locate_low {x y : Byte} (hy : y.toNat < 24) :
    locate x y = { store := if x.getLsbD 1 then .lr1 else .lr0
                   index := y.toNat * 64 + x.toNat / 4 - 0x300
                   high := x.getLsbD 0 } := by
  have hx := x.isLt
  have h : ¬ Param.winBase ≤ videoAddress x y := by
    rw [videoAddress_eq]
    simp only [Param.winBase]
    omega
  rw [locate, if_neg h, videoAddress_eq]

/-- The size of each storage (R22, R82). -/
def StoreName.size : StoreName → Nat
  | .vb0 => Param.bankSize
  | .vb1 => Param.bankSize
  | .lr0 => Param.lowrowSize
  | .lr1 => Param.lowrowSize

/-- No access of the indexed port falls outside its storage (R81, R82). -/
theorem locate_inside {x y : Byte} (hy : 12 ≤ y.toNat) : (locate x y).index < (locate x y).store.size := by
  have hx := x.isLt
  have hy' := y.isLt
  by_cases h : 24 ≤ y.toNat
  · rw [locate_bank h]
    cases x.getLsbD 1 <;> simp [StoreName.size, Param.bankSize] <;> omega
  · rw [locate_low (by omega)]
    cases x.getLsbD 1 <;> simp [StoreName.size, Param.lowrowSize] <;> omega

end Sys2Proof.Machine
end

