-- ==== Sys2Proof/Laws/Decode.lean ====
section
/-! SUPPORT. The fields of a packed word, the decoder's rows as plain arithmetic, and the masks of R51 as plain arithmetic. -/

namespace Sys2Proof

/-! ### Fields -/

theorem kindOf_toNat (T : Word) : (kindOf T).toNat = T.toNat / 2 ^ 25 := by
  have := T.isLt
  simp [kindOf, BitVec.extractLsb'_toNat, Nat.shiftRight_eq_div_pow]
  omega

theorem addrOf_toNat (T : Word) : (addrOf T).toNat = T.toNat / 2 ^ 8 % 2 ^ 17 := by
  simp [addrOf, BitVec.extractLsb'_toNat, Nat.shiftRight_eq_div_pow]

theorem dataOf_toNat (T : Word) : (dataOf T).toNat = T.toNat % 2 ^ 8 := by
  simp [dataOf, BitVec.extractLsb'_toNat]

theorem packWord_toNat (k : BitVec 2) (a : BusAddr) (d : Byte) :
    (packWord k a d).toNat = 2 ^ 25 * k.toNat + 2 ^ 8 * a.toNat + d.toNat := by
  have := k.isLt
  have := a.isLt
  have := d.isLt
  simp [packWord]
  omega

@[simp] theorem kindOf_packWord (k : BitVec 2) (a : BusAddr) (d : Byte) : kindOf (packWord k a d) = k := by
  have := a.isLt
  have := d.isLt
  apply BitVec.eq_of_toNat_eq
  rw [kindOf_toNat, packWord_toNat]
  omega

@[simp] theorem addrOf_packWord (k : BitVec 2) (a : BusAddr) (d : Byte) : addrOf (packWord k a d) = a := by
  have := a.isLt
  have := d.isLt
  apply BitVec.eq_of_toNat_eq
  rw [addrOf_toNat, packWord_toNat]
  omega

@[simp] theorem dataOf_packWord (k : BitVec 2) (a : BusAddr) (d : Byte) : dataOf (packWord k a d) = d := by
  have := d.isLt
  apply BitVec.eq_of_toNat_eq
  rw [dataOf_toNat, packWord_toNat]
  omega

/-- A word is its three fields. -/
theorem packWord_fields (T : Word) : packWord (kindOf T) (addrOf T) (dataOf T) = T := by
  have := T.isLt
  apply BitVec.eq_of_toNat_eq
  rw [packWord_toNat, kindOf_toNat, addrOf_toNat, dataOf_toNat]
  omega

/-- Unpacking a packed word in the generic spelling gives it back. -/
@[simp] theorem unpack_pack (p : BusOp) : unpack p.pack = p := by
  cases p <;> simp [unpack, BusOp.pack]

/-! ### The masks of R51 -/

/-- Every mask of R51 keeps the bits from some place up; masked so, a word is a constant exactly when its upper part is. -/
theorem and_highMask_eq_iff (T : Word) (k c : Nat) (hk : k ≤ 27) (hc : c < 2 ^ (27 - k)) :
    T &&& (BitVec.allOnes 27 <<< k) = BitVec.ofNat 27 (c * 2 ^ k) ↔ T.toNat / 2 ^ k = c := by
  have hmask : T &&& (BitVec.allOnes 27 <<< k) = (T >>> k) <<< k := by
    ext i hi
    by_cases h : i < k
    · simp [h]
    · simp [h, -BitVec.reduceAllOnes]
      rw [show k + (i - k) = i by omega]
      simp [BitVec.getLsbD_eq_getElem hi]
  have hpow : 2 ^ (27 - k) * 2 ^ k = 2 ^ 27 := by rw [← Nat.pow_add]; congr 1; omega
  have hpos : 0 < 2 ^ k := Nat.two_pow_pos k
  have hT : T.toNat / 2 ^ k * 2 ^ k < 2 ^ 27 := Nat.lt_of_le_of_lt (Nat.div_mul_le_self _ _) T.isLt
  have hcs : c * 2 ^ k < 2 ^ 27 := hpow ▸ Nat.mul_lt_mul_of_pos_right hc hpos
  rw [hmask, ← BitVec.toNat_inj]
  simp only [BitVec.toNat_shiftLeft, BitVec.toNat_ushiftRight, Nat.shiftLeft_eq, Nat.shiftRight_eq_div_pow,
    BitVec.toNat_ofNat, Nat.mod_eq_of_lt hT, Nat.mod_eq_of_lt hcs]
  exact ⟨fun h => Nat.eq_of_mul_eq_mul_right hpos h, fun h => by rw [h]⟩

/-- The four masks of R51. -/
theorem mask8 : (0x7FFFF00#27 : Word) = BitVec.allOnes 27 <<< 8 := by decide
theorem mask15 : (0x7FF8000#27 : Word) = BitVec.allOnes 27 <<< 15 := by decide
theorem mask22 : (0x7C00000#27 : Word) = BitVec.allOnes 27 <<< 22 := by decide
theorem mask25 : (0x6000000#27 : Word) = BitVec.allOnes 27 <<< 25 := by decide

/-- Which words select a row, in plain arithmetic: the upper part of the word from bit `k` is `c`, and the address lies in the
bounds. -/
theorem selects_iff {row : OpRow} {k c : Nat} (hmask : row.mask = BitVec.allOnes 27 <<< k)
    (hbits : row.bits = BitVec.ofNat 27 (c * 2 ^ k)) (hk : k ≤ 27) (hc : c < 2 ^ (27 - k)) (T : Word) :
    row.selects T = true ↔
      T.toNat / 2 ^ k = c ∧ row.addrLo ≤ T.toNat / 2 ^ 8 % 2 ^ 17 ∧ T.toNat / 2 ^ 8 % 2 ^ 17 ≤ row.addrHi := by
  simp only [OpRow.selects, hmask, hbits, and_highMask_eq_iff T k c hk hc, addrOf_toNat, Bool.and_eq_true,
    decide_eq_true_eq, and_assoc]

end Sys2Proof
end

