-- ==== Sys2Proof/Laws/Sparse.lean ====
section
/-! SUPPORT. What the sparse arrays answer after a write, and that a write keeps the canonical form. -/

namespace Sys2Proof.Machine

variable {α : Type}

/-! ### Reading after an update -/

theorem sparseRead_erase (dflt : α) (m : List (Nat × α)) (a k : Nat) :
    sparseRead dflt (sparseErase a m) k = if k = a then dflt else sparseRead dflt m k := by
  induction m with
  | nil => simp [sparseErase, sparseRead]
  | cons p m ih => grind [sparseErase, sparseRead]

theorem sparseRead_insert (dflt : α) (m : List (Nat × α)) (a k : Nat) (v : α)
    (fresh : ∀ p ∈ m, p.1 ≠ a) :
    sparseRead dflt (sparseInsert a v m) k = if k = a then v else sparseRead dflt m k := by
  induction m with
  | nil => grind [sparseInsert, sparseRead]
  | cons p m ih => grind [sparseInsert, sparseRead]

theorem mem_sparseErase {a : Nat} {m : List (Nat × α)} {p : Nat × α} :
    p ∈ sparseErase a m ↔ p ∈ m ∧ p.1 ≠ a := by
  induction m with
  | nil => simp [sparseErase]
  | cons q m ih => grind [sparseErase]

theorem mem_sparseInsert {a : Nat} {v : α} {m : List (Nat × α)} {p : Nat × α} :
    p ∈ sparseInsert a v m ↔ p = (a, v) ∨ p ∈ m := by
  induction m with
  | nil => simp [sparseInsert]
  | cons q m ih => grind [sparseInsert]

/-- A read after a write: the value written there, the old value elsewhere. In every list, canonical or not. -/
theorem sparseRead_write [DecidableEq α] (dflt : α) (m : List (Nat × α)) (a k : Nat) (v : α) :
    sparseRead dflt (sparseWrite dflt m a v) k = if k = a then v else sparseRead dflt m k := by
  unfold sparseWrite
  split
  · subst v
    exact sparseRead_erase dflt m a k
  · rw [sparseRead_insert dflt _ a k v fun p hp => (mem_sparseErase.mp hp).2, sparseRead_erase]
    split <;> simp_all

/-! ### The canonical form -/

theorem sparseErase_sorted {a : Nat} {m : List (Nat × α)} (h : m.Pairwise (fun p q => p.1 < q.1)) :
    (sparseErase a m).Pairwise (fun p q => p.1 < q.1) := by
  induction m with
  | nil => simp [sparseErase]
  | cons q m ih =>
    have ⟨hq, hm⟩ := List.pairwise_cons.mp h
    unfold sparseErase
    split
    · exact ih hm
    · exact List.pairwise_cons.mpr ⟨fun p hp => hq p (mem_sparseErase.mp hp).1, ih hm⟩

theorem sparseInsert_sorted {a : Nat} {v : α} {m : List (Nat × α)} (h : m.Pairwise (fun p q => p.1 < q.1))
    (fresh : ∀ p ∈ m, p.1 ≠ a) : (sparseInsert a v m).Pairwise (fun p q => p.1 < q.1) := by
  induction m with
  | nil => simp [sparseInsert]
  | cons q m ih =>
    have ⟨hq, hm⟩ := List.pairwise_cons.mp h
    have hne : q.1 ≠ a := fresh q (by simp)
    unfold sparseInsert
    split
    · rename_i hlt
      refine List.pairwise_cons.mpr ⟨fun p hp => ?_, h⟩
      rcases List.mem_cons.mp hp with rfl | hp
      · exact hlt
      · exact Nat.lt_trans hlt (hq p hp)
    · refine List.pairwise_cons.mpr ⟨fun p hp => ?_, ih hm fun p hp => fresh p (by simp [hp])⟩
      rcases mem_sparseInsert.mp hp with rfl | hp
      · show q.1 < a
        omega
      · exact hq p hp

/-- A write inside the array keeps the canonical form. -/
theorem sparseWrite_wf [DecidableEq α] {dflt : α} {n : Nat} {m : List (Nat × α)} {a : Nat} {v : α}
    (h : SparseWf dflt n m) (ha : a < n) : SparseWf dflt n (sparseWrite dflt m a v) := by
  unfold sparseWrite
  split
  · exact ⟨sparseErase_sorted h.1, fun p hp => h.2 p (mem_sparseErase.mp hp).1⟩
  · rename_i hv
    refine ⟨sparseInsert_sorted (sparseErase_sorted h.1) fun p hp => (mem_sparseErase.mp hp).2, fun p hp => ?_⟩
    rcases mem_sparseInsert.mp hp with rfl | hp
    · exact ⟨ha, hv⟩
    · exact h.2 p (mem_sparseErase.mp hp).1

theorem sparseWf_nil (dflt : α) (n : Nat) : SparseWf dflt n [] :=
  ⟨List.Pairwise.nil, by simp⟩

/-- Two canonical arrays that read the same everywhere are the same data. -/
theorem eq_of_sparseRead_eq {dflt : α} {n : Nat} {m m' : List (Nat × α)} (h : SparseWf dflt n m)
    (h' : SparseWf dflt n m') (same : ∀ a, sparseRead dflt m a = sparseRead dflt m' a) : m = m' := by
  have below : ∀ (l : List (Nat × α)) (a : Nat), (∀ p ∈ l, a < p.1) → sparseRead dflt l a = dflt := by
    intro l a hl
    induction l with
    | nil => rfl
    | cons q l ih =>
      have := hl q (by simp)
      unfold sparseRead
      rw [if_neg (by omega)]
      exact ih fun p hp => hl p (by simp [hp])
  induction m generalizing m' with
  | nil =>
    cases m' with
    | nil => rfl
    | cons q m' =>
      have := same q.1
      simp [sparseRead] at this
      exact absurd this.symm (h'.2 q (by simp)).2
  | cons p m ih =>
    cases m' with
    | nil =>
      have := same p.1
      simp [sparseRead] at this
      exact absurd this (h.2 p (by simp)).2
    | cons q m' =>
      have hp := List.pairwise_cons.mp h.1
      have hq := List.pairwise_cons.mp h'.1
      have hkey : p.1 = q.1 := by
        rcases Nat.lt_trichotomy p.1 q.1 with hlt | heq | hlt
        · have := same p.1
          rw [below (q :: m') p.1 (by
            intro r hr
            rcases List.mem_cons.mp hr with rfl | hr
            · exact hlt
            · exact Nat.lt_trans hlt (hq.1 r hr))] at this
          simp [sparseRead] at this
          exact absurd this (h.2 p (by simp)).2
        · exact heq
        · have := same q.1
          rw [below (p :: m) q.1 (by
            intro r hr
            rcases List.mem_cons.mp hr with rfl | hr
            · exact hlt
            · exact Nat.lt_trans hlt (hp.1 r hr))] at this
          simp [sparseRead] at this
          exact absurd this.symm (h'.2 q (by simp)).2
      have hval : p.2 = q.2 := by
        have := same p.1
        simpa [sparseRead, hkey] using this
      have htail : m = m' := by
        refine ih ⟨hp.2, fun r hr => h.2 r (by simp [hr])⟩ ⟨hq.2, fun r hr => h'.2 r (by simp [hr])⟩ fun a => ?_
        by_cases ha : p.1 = a
        · rw [below m a fun r hr => ha ▸ hp.1 r hr, below m' a fun r hr => ha ▸ hkey ▸ hq.1 r hr]
        · have := same a
          simpa [sparseRead, ha, hkey ▸ ha] using this
      rw [Prod.ext hkey hval, htail]

theorem sparseErase_insert [DecidableEq α] {a : Nat} {v : α} {m : List (Nat × α)} (fresh : ∀ p ∈ m, p.1 ≠ a) :
    sparseErase a (sparseInsert a v m) = m := by
  have erase_fresh : ∀ l : List (Nat × α), (∀ p ∈ l, p.1 ≠ a) → sparseErase a l = l := by
    intro l hl
    induction l with
    | nil => rfl
    | cons q l ih =>
      unfold sparseErase
      rw [if_neg (hl q (by simp)), ih fun p hp => hl p (by simp [hp])]
  induction m with
  | nil => simp [sparseInsert, sparseErase]
  | cons q m ih =>
    have hq := fresh q (by simp)
    unfold sparseInsert
    split
    · unfold sparseErase
      rw [if_pos rfl]
      exact erase_fresh _ fresh
    · unfold sparseErase
      rw [if_neg hq, ih fun p hp => fresh p (by simp [hp])]

/-- Writing the same value twice is writing it once. -/
theorem sparseWrite_write [DecidableEq α] (dflt : α) (m : List (Nat × α)) (a : Nat) (v : α) :
    sparseWrite dflt (sparseWrite dflt m a v) a v = sparseWrite dflt m a v := by
  have erase_erase : ∀ l : List (Nat × α), sparseErase a (sparseErase a l) = sparseErase a l := by
    intro l
    induction l with
    | nil => rfl
    | cons q l ih => grind [sparseErase]
  unfold sparseWrite
  split
  · exact erase_erase m
  · rw [sparseErase_insert fun p hp => (mem_sparseErase.mp hp).2]

end Sys2Proof.Machine
end

