-- ==== Sys2Proof/Laws/State.lean ====
section
/-! SUPPORT. One lemma per field per update of Block and of State, each true by unfolding. -/

namespace Sys2Proof.Machine

/-! ### `Block.setX` -/

@[simp] theorem Block.setX_x (b : Block) (v : Byte) : (b.setX v).x = v := rfl
@[simp] theorem Block.setX_y (b : Block) (v : Byte) : (b.setX v).y = b.y := rfl
@[simp] theorem Block.setX_p (b : Block) (v : Byte) : (b.setX v).p = b.p := rfl
@[simp] theorem Block.setX_aix (b : Block) (v : Byte) : (b.setX v).aix = b.aix := rfl
@[simp] theorem Block.setX_aiy (b : Block) (v : Byte) : (b.setX v).aiy = b.aiy := rfl
@[simp] theorem Block.setX_both (b : Block) (v : Byte) : (b.setX v).both = b.both := rfl
@[simp] theorem Block.setX_vbank (b : Block) (v : Byte) : (b.setX v).vbank = b.vbank := rfl
@[simp] theorem Block.setX_cbank (b : Block) (v : Byte) : (b.setX v).cbank = b.cbank := rfl
@[simp] theorem Block.setX_pal (b : Block) (v : Byte) : (b.setX v).pal = b.pal := rfl
@[simp] theorem Block.setX_dirty (b : Block) (v : Byte) : (b.setX v).dirty = b.dirty := rfl
@[simp] theorem Block.setX_vb0 (b : Block) (v : Byte) : (b.setX v).vb0 = b.vb0 := rfl
@[simp] theorem Block.setX_vb1 (b : Block) (v : Byte) : (b.setX v).vb1 = b.vb1 := rfl
@[simp] theorem Block.setX_lr0 (b : Block) (v : Byte) : (b.setX v).lr0 = b.lr0 := rfl
@[simp] theorem Block.setX_lr1 (b : Block) (v : Byte) : (b.setX v).lr1 = b.lr1 := rfl
@[simp] theorem Block.setX_wb (b : Block) (v : Byte) : (b.setX v).wb = b.wb := rfl

/-! ### `Block.setY` -/

@[simp] theorem Block.setY_x (b : Block) (v : Byte) : (b.setY v).x = b.x := rfl
@[simp] theorem Block.setY_y (b : Block) (v : Byte) : (b.setY v).y = v := rfl
@[simp] theorem Block.setY_p (b : Block) (v : Byte) : (b.setY v).p = b.p := rfl
@[simp] theorem Block.setY_aix (b : Block) (v : Byte) : (b.setY v).aix = b.aix := rfl
@[simp] theorem Block.setY_aiy (b : Block) (v : Byte) : (b.setY v).aiy = b.aiy := rfl
@[simp] theorem Block.setY_both (b : Block) (v : Byte) : (b.setY v).both = b.both := rfl
@[simp] theorem Block.setY_vbank (b : Block) (v : Byte) : (b.setY v).vbank = b.vbank := rfl
@[simp] theorem Block.setY_cbank (b : Block) (v : Byte) : (b.setY v).cbank = b.cbank := rfl
@[simp] theorem Block.setY_pal (b : Block) (v : Byte) : (b.setY v).pal = b.pal := rfl
@[simp] theorem Block.setY_dirty (b : Block) (v : Byte) : (b.setY v).dirty = b.dirty := rfl
@[simp] theorem Block.setY_vb0 (b : Block) (v : Byte) : (b.setY v).vb0 = b.vb0 := rfl
@[simp] theorem Block.setY_vb1 (b : Block) (v : Byte) : (b.setY v).vb1 = b.vb1 := rfl
@[simp] theorem Block.setY_lr0 (b : Block) (v : Byte) : (b.setY v).lr0 = b.lr0 := rfl
@[simp] theorem Block.setY_lr1 (b : Block) (v : Byte) : (b.setY v).lr1 = b.lr1 := rfl
@[simp] theorem Block.setY_wb (b : Block) (v : Byte) : (b.setY v).wb = b.wb := rfl

/-! ### `Block.setP` -/

@[simp] theorem Block.setP_x (b : Block) (v : Byte) : (b.setP v).x = b.x := rfl
@[simp] theorem Block.setP_y (b : Block) (v : Byte) : (b.setP v).y = b.y := rfl
@[simp] theorem Block.setP_p (b : Block) (v : Byte) : (b.setP v).p = v := rfl
@[simp] theorem Block.setP_aix (b : Block) (v : Byte) : (b.setP v).aix = b.aix := rfl
@[simp] theorem Block.setP_aiy (b : Block) (v : Byte) : (b.setP v).aiy = b.aiy := rfl
@[simp] theorem Block.setP_both (b : Block) (v : Byte) : (b.setP v).both = b.both := rfl
@[simp] theorem Block.setP_vbank (b : Block) (v : Byte) : (b.setP v).vbank = b.vbank := rfl
@[simp] theorem Block.setP_cbank (b : Block) (v : Byte) : (b.setP v).cbank = b.cbank := rfl
@[simp] theorem Block.setP_pal (b : Block) (v : Byte) : (b.setP v).pal = b.pal := rfl
@[simp] theorem Block.setP_dirty (b : Block) (v : Byte) : (b.setP v).dirty = b.dirty := rfl
@[simp] theorem Block.setP_vb0 (b : Block) (v : Byte) : (b.setP v).vb0 = b.vb0 := rfl
@[simp] theorem Block.setP_vb1 (b : Block) (v : Byte) : (b.setP v).vb1 = b.vb1 := rfl
@[simp] theorem Block.setP_lr0 (b : Block) (v : Byte) : (b.setP v).lr0 = b.lr0 := rfl
@[simp] theorem Block.setP_lr1 (b : Block) (v : Byte) : (b.setP v).lr1 = b.lr1 := rfl
@[simp] theorem Block.setP_wb (b : Block) (v : Byte) : (b.setP v).wb = b.wb := rfl

/-! ### `Block.setAix` -/

@[simp] theorem Block.setAix_x (b : Block) (v : Byte) : (b.setAix v).x = b.x := rfl
@[simp] theorem Block.setAix_y (b : Block) (v : Byte) : (b.setAix v).y = b.y := rfl
@[simp] theorem Block.setAix_p (b : Block) (v : Byte) : (b.setAix v).p = b.p := rfl
@[simp] theorem Block.setAix_aix (b : Block) (v : Byte) : (b.setAix v).aix = v := rfl
@[simp] theorem Block.setAix_aiy (b : Block) (v : Byte) : (b.setAix v).aiy = b.aiy := rfl
@[simp] theorem Block.setAix_both (b : Block) (v : Byte) : (b.setAix v).both = b.both := rfl
@[simp] theorem Block.setAix_vbank (b : Block) (v : Byte) : (b.setAix v).vbank = b.vbank := rfl
@[simp] theorem Block.setAix_cbank (b : Block) (v : Byte) : (b.setAix v).cbank = b.cbank := rfl
@[simp] theorem Block.setAix_pal (b : Block) (v : Byte) : (b.setAix v).pal = b.pal := rfl
@[simp] theorem Block.setAix_dirty (b : Block) (v : Byte) : (b.setAix v).dirty = b.dirty := rfl
@[simp] theorem Block.setAix_vb0 (b : Block) (v : Byte) : (b.setAix v).vb0 = b.vb0 := rfl
@[simp] theorem Block.setAix_vb1 (b : Block) (v : Byte) : (b.setAix v).vb1 = b.vb1 := rfl
@[simp] theorem Block.setAix_lr0 (b : Block) (v : Byte) : (b.setAix v).lr0 = b.lr0 := rfl
@[simp] theorem Block.setAix_lr1 (b : Block) (v : Byte) : (b.setAix v).lr1 = b.lr1 := rfl
@[simp] theorem Block.setAix_wb (b : Block) (v : Byte) : (b.setAix v).wb = b.wb := rfl

/-! ### `Block.setAiy` -/

@[simp] theorem Block.setAiy_x (b : Block) (v : Byte) : (b.setAiy v).x = b.x := rfl
@[simp] theorem Block.setAiy_y (b : Block) (v : Byte) : (b.setAiy v).y = b.y := rfl
@[simp] theorem Block.setAiy_p (b : Block) (v : Byte) : (b.setAiy v).p = b.p := rfl
@[simp] theorem Block.setAiy_aix (b : Block) (v : Byte) : (b.setAiy v).aix = b.aix := rfl
@[simp] theorem Block.setAiy_aiy (b : Block) (v : Byte) : (b.setAiy v).aiy = v := rfl
@[simp] theorem Block.setAiy_both (b : Block) (v : Byte) : (b.setAiy v).both = b.both := rfl
@[simp] theorem Block.setAiy_vbank (b : Block) (v : Byte) : (b.setAiy v).vbank = b.vbank := rfl
@[simp] theorem Block.setAiy_cbank (b : Block) (v : Byte) : (b.setAiy v).cbank = b.cbank := rfl
@[simp] theorem Block.setAiy_pal (b : Block) (v : Byte) : (b.setAiy v).pal = b.pal := rfl
@[simp] theorem Block.setAiy_dirty (b : Block) (v : Byte) : (b.setAiy v).dirty = b.dirty := rfl
@[simp] theorem Block.setAiy_vb0 (b : Block) (v : Byte) : (b.setAiy v).vb0 = b.vb0 := rfl
@[simp] theorem Block.setAiy_vb1 (b : Block) (v : Byte) : (b.setAiy v).vb1 = b.vb1 := rfl
@[simp] theorem Block.setAiy_lr0 (b : Block) (v : Byte) : (b.setAiy v).lr0 = b.lr0 := rfl
@[simp] theorem Block.setAiy_lr1 (b : Block) (v : Byte) : (b.setAiy v).lr1 = b.lr1 := rfl
@[simp] theorem Block.setAiy_wb (b : Block) (v : Byte) : (b.setAiy v).wb = b.wb := rfl

/-! ### `Block.setBoth` -/

@[simp] theorem Block.setBoth_x (b : Block) (v : Byte) : (b.setBoth v).x = b.x := rfl
@[simp] theorem Block.setBoth_y (b : Block) (v : Byte) : (b.setBoth v).y = b.y := rfl
@[simp] theorem Block.setBoth_p (b : Block) (v : Byte) : (b.setBoth v).p = b.p := rfl
@[simp] theorem Block.setBoth_aix (b : Block) (v : Byte) : (b.setBoth v).aix = b.aix := rfl
@[simp] theorem Block.setBoth_aiy (b : Block) (v : Byte) : (b.setBoth v).aiy = b.aiy := rfl
@[simp] theorem Block.setBoth_both (b : Block) (v : Byte) : (b.setBoth v).both = v := rfl
@[simp] theorem Block.setBoth_vbank (b : Block) (v : Byte) : (b.setBoth v).vbank = b.vbank := rfl
@[simp] theorem Block.setBoth_cbank (b : Block) (v : Byte) : (b.setBoth v).cbank = b.cbank := rfl
@[simp] theorem Block.setBoth_pal (b : Block) (v : Byte) : (b.setBoth v).pal = b.pal := rfl
@[simp] theorem Block.setBoth_dirty (b : Block) (v : Byte) : (b.setBoth v).dirty = b.dirty := rfl
@[simp] theorem Block.setBoth_vb0 (b : Block) (v : Byte) : (b.setBoth v).vb0 = b.vb0 := rfl
@[simp] theorem Block.setBoth_vb1 (b : Block) (v : Byte) : (b.setBoth v).vb1 = b.vb1 := rfl
@[simp] theorem Block.setBoth_lr0 (b : Block) (v : Byte) : (b.setBoth v).lr0 = b.lr0 := rfl
@[simp] theorem Block.setBoth_lr1 (b : Block) (v : Byte) : (b.setBoth v).lr1 = b.lr1 := rfl
@[simp] theorem Block.setBoth_wb (b : Block) (v : Byte) : (b.setBoth v).wb = b.wb := rfl

/-! ### `Block.setVbank` -/

@[simp] theorem Block.setVbank_x (b : Block) (v : Byte) : (b.setVbank v).x = b.x := rfl
@[simp] theorem Block.setVbank_y (b : Block) (v : Byte) : (b.setVbank v).y = b.y := rfl
@[simp] theorem Block.setVbank_p (b : Block) (v : Byte) : (b.setVbank v).p = b.p := rfl
@[simp] theorem Block.setVbank_aix (b : Block) (v : Byte) : (b.setVbank v).aix = b.aix := rfl
@[simp] theorem Block.setVbank_aiy (b : Block) (v : Byte) : (b.setVbank v).aiy = b.aiy := rfl
@[simp] theorem Block.setVbank_both (b : Block) (v : Byte) : (b.setVbank v).both = b.both := rfl
@[simp] theorem Block.setVbank_vbank (b : Block) (v : Byte) : (b.setVbank v).vbank = v := rfl
@[simp] theorem Block.setVbank_cbank (b : Block) (v : Byte) : (b.setVbank v).cbank = b.cbank := rfl
@[simp] theorem Block.setVbank_pal (b : Block) (v : Byte) : (b.setVbank v).pal = b.pal := rfl
@[simp] theorem Block.setVbank_dirty (b : Block) (v : Byte) : (b.setVbank v).dirty = b.dirty := rfl
@[simp] theorem Block.setVbank_vb0 (b : Block) (v : Byte) : (b.setVbank v).vb0 = b.vb0 := rfl
@[simp] theorem Block.setVbank_vb1 (b : Block) (v : Byte) : (b.setVbank v).vb1 = b.vb1 := rfl
@[simp] theorem Block.setVbank_lr0 (b : Block) (v : Byte) : (b.setVbank v).lr0 = b.lr0 := rfl
@[simp] theorem Block.setVbank_lr1 (b : Block) (v : Byte) : (b.setVbank v).lr1 = b.lr1 := rfl
@[simp] theorem Block.setVbank_wb (b : Block) (v : Byte) : (b.setVbank v).wb = b.wb := rfl

/-! ### `Block.setCbank` -/

@[simp] theorem Block.setCbank_x (b : Block) (v : Byte) : (b.setCbank v).x = b.x := rfl
@[simp] theorem Block.setCbank_y (b : Block) (v : Byte) : (b.setCbank v).y = b.y := rfl
@[simp] theorem Block.setCbank_p (b : Block) (v : Byte) : (b.setCbank v).p = b.p := rfl
@[simp] theorem Block.setCbank_aix (b : Block) (v : Byte) : (b.setCbank v).aix = b.aix := rfl
@[simp] theorem Block.setCbank_aiy (b : Block) (v : Byte) : (b.setCbank v).aiy = b.aiy := rfl
@[simp] theorem Block.setCbank_both (b : Block) (v : Byte) : (b.setCbank v).both = b.both := rfl
@[simp] theorem Block.setCbank_vbank (b : Block) (v : Byte) : (b.setCbank v).vbank = b.vbank := rfl
@[simp] theorem Block.setCbank_cbank (b : Block) (v : Byte) : (b.setCbank v).cbank = v := rfl
@[simp] theorem Block.setCbank_pal (b : Block) (v : Byte) : (b.setCbank v).pal = b.pal := rfl
@[simp] theorem Block.setCbank_dirty (b : Block) (v : Byte) : (b.setCbank v).dirty = b.dirty := rfl
@[simp] theorem Block.setCbank_vb0 (b : Block) (v : Byte) : (b.setCbank v).vb0 = b.vb0 := rfl
@[simp] theorem Block.setCbank_vb1 (b : Block) (v : Byte) : (b.setCbank v).vb1 = b.vb1 := rfl
@[simp] theorem Block.setCbank_lr0 (b : Block) (v : Byte) : (b.setCbank v).lr0 = b.lr0 := rfl
@[simp] theorem Block.setCbank_lr1 (b : Block) (v : Byte) : (b.setCbank v).lr1 = b.lr1 := rfl
@[simp] theorem Block.setCbank_wb (b : Block) (v : Byte) : (b.setCbank v).wb = b.wb := rfl

/-! ### `Block.setPal` -/

@[simp] theorem Block.setPal_x (b : Block) (i : Fin 64) (c : Rgb) : (b.setPal i c).x = b.x := rfl
@[simp] theorem Block.setPal_y (b : Block) (i : Fin 64) (c : Rgb) : (b.setPal i c).y = b.y := rfl
@[simp] theorem Block.setPal_p (b : Block) (i : Fin 64) (c : Rgb) : (b.setPal i c).p = b.p := rfl
@[simp] theorem Block.setPal_aix (b : Block) (i : Fin 64) (c : Rgb) : (b.setPal i c).aix = b.aix := rfl
@[simp] theorem Block.setPal_aiy (b : Block) (i : Fin 64) (c : Rgb) : (b.setPal i c).aiy = b.aiy := rfl
@[simp] theorem Block.setPal_both (b : Block) (i : Fin 64) (c : Rgb) : (b.setPal i c).both = b.both := rfl
@[simp] theorem Block.setPal_vbank (b : Block) (i : Fin 64) (c : Rgb) : (b.setPal i c).vbank = b.vbank := rfl
@[simp] theorem Block.setPal_cbank (b : Block) (i : Fin 64) (c : Rgb) : (b.setPal i c).cbank = b.cbank := rfl
@[simp] theorem Block.setPal_pal (b : Block) (i : Fin 64) (c : Rgb) : (b.setPal i c).pal = b.pal.set i.val c i.isLt := rfl
@[simp] theorem Block.setPal_dirty (b : Block) (i : Fin 64) (c : Rgb) : (b.setPal i c).dirty = b.dirty := rfl
@[simp] theorem Block.setPal_vb0 (b : Block) (i : Fin 64) (c : Rgb) : (b.setPal i c).vb0 = b.vb0 := rfl
@[simp] theorem Block.setPal_vb1 (b : Block) (i : Fin 64) (c : Rgb) : (b.setPal i c).vb1 = b.vb1 := rfl
@[simp] theorem Block.setPal_lr0 (b : Block) (i : Fin 64) (c : Rgb) : (b.setPal i c).lr0 = b.lr0 := rfl
@[simp] theorem Block.setPal_lr1 (b : Block) (i : Fin 64) (c : Rgb) : (b.setPal i c).lr1 = b.lr1 := rfl
@[simp] theorem Block.setPal_wb (b : Block) (i : Fin 64) (c : Rgb) : (b.setPal i c).wb = b.wb := rfl

/-! ### `Block.setDirty` -/

@[simp] theorem Block.setDirty_x (b : Block) (v : Bool) : (b.setDirty v).x = b.x := rfl
@[simp] theorem Block.setDirty_y (b : Block) (v : Bool) : (b.setDirty v).y = b.y := rfl
@[simp] theorem Block.setDirty_p (b : Block) (v : Bool) : (b.setDirty v).p = b.p := rfl
@[simp] theorem Block.setDirty_aix (b : Block) (v : Bool) : (b.setDirty v).aix = b.aix := rfl
@[simp] theorem Block.setDirty_aiy (b : Block) (v : Bool) : (b.setDirty v).aiy = b.aiy := rfl
@[simp] theorem Block.setDirty_both (b : Block) (v : Bool) : (b.setDirty v).both = b.both := rfl
@[simp] theorem Block.setDirty_vbank (b : Block) (v : Bool) : (b.setDirty v).vbank = b.vbank := rfl
@[simp] theorem Block.setDirty_cbank (b : Block) (v : Bool) : (b.setDirty v).cbank = b.cbank := rfl
@[simp] theorem Block.setDirty_pal (b : Block) (v : Bool) : (b.setDirty v).pal = b.pal := rfl
@[simp] theorem Block.setDirty_dirty (b : Block) (v : Bool) : (b.setDirty v).dirty = v := rfl
@[simp] theorem Block.setDirty_vb0 (b : Block) (v : Bool) : (b.setDirty v).vb0 = b.vb0 := rfl
@[simp] theorem Block.setDirty_vb1 (b : Block) (v : Bool) : (b.setDirty v).vb1 = b.vb1 := rfl
@[simp] theorem Block.setDirty_lr0 (b : Block) (v : Bool) : (b.setDirty v).lr0 = b.lr0 := rfl
@[simp] theorem Block.setDirty_lr1 (b : Block) (v : Bool) : (b.setDirty v).lr1 = b.lr1 := rfl
@[simp] theorem Block.setDirty_wb (b : Block) (v : Bool) : (b.setDirty v).wb = b.wb := rfl

/-! ### `Block.setVb0` -/

@[simp] theorem Block.setVb0_x (b : Block) (v : Memory) : (b.setVb0 v).x = b.x := rfl
@[simp] theorem Block.setVb0_y (b : Block) (v : Memory) : (b.setVb0 v).y = b.y := rfl
@[simp] theorem Block.setVb0_p (b : Block) (v : Memory) : (b.setVb0 v).p = b.p := rfl
@[simp] theorem Block.setVb0_aix (b : Block) (v : Memory) : (b.setVb0 v).aix = b.aix := rfl
@[simp] theorem Block.setVb0_aiy (b : Block) (v : Memory) : (b.setVb0 v).aiy = b.aiy := rfl
@[simp] theorem Block.setVb0_both (b : Block) (v : Memory) : (b.setVb0 v).both = b.both := rfl
@[simp] theorem Block.setVb0_vbank (b : Block) (v : Memory) : (b.setVb0 v).vbank = b.vbank := rfl
@[simp] theorem Block.setVb0_cbank (b : Block) (v : Memory) : (b.setVb0 v).cbank = b.cbank := rfl
@[simp] theorem Block.setVb0_pal (b : Block) (v : Memory) : (b.setVb0 v).pal = b.pal := rfl
@[simp] theorem Block.setVb0_dirty (b : Block) (v : Memory) : (b.setVb0 v).dirty = b.dirty := rfl
@[simp] theorem Block.setVb0_vb0 (b : Block) (v : Memory) : (b.setVb0 v).vb0 = v := rfl
@[simp] theorem Block.setVb0_vb1 (b : Block) (v : Memory) : (b.setVb0 v).vb1 = b.vb1 := rfl
@[simp] theorem Block.setVb0_lr0 (b : Block) (v : Memory) : (b.setVb0 v).lr0 = b.lr0 := rfl
@[simp] theorem Block.setVb0_lr1 (b : Block) (v : Memory) : (b.setVb0 v).lr1 = b.lr1 := rfl
@[simp] theorem Block.setVb0_wb (b : Block) (v : Memory) : (b.setVb0 v).wb = b.wb := rfl

/-! ### `Block.setVb1` -/

@[simp] theorem Block.setVb1_x (b : Block) (v : Memory) : (b.setVb1 v).x = b.x := rfl
@[simp] theorem Block.setVb1_y (b : Block) (v : Memory) : (b.setVb1 v).y = b.y := rfl
@[simp] theorem Block.setVb1_p (b : Block) (v : Memory) : (b.setVb1 v).p = b.p := rfl
@[simp] theorem Block.setVb1_aix (b : Block) (v : Memory) : (b.setVb1 v).aix = b.aix := rfl
@[simp] theorem Block.setVb1_aiy (b : Block) (v : Memory) : (b.setVb1 v).aiy = b.aiy := rfl
@[simp] theorem Block.setVb1_both (b : Block) (v : Memory) : (b.setVb1 v).both = b.both := rfl
@[simp] theorem Block.setVb1_vbank (b : Block) (v : Memory) : (b.setVb1 v).vbank = b.vbank := rfl
@[simp] theorem Block.setVb1_cbank (b : Block) (v : Memory) : (b.setVb1 v).cbank = b.cbank := rfl
@[simp] theorem Block.setVb1_pal (b : Block) (v : Memory) : (b.setVb1 v).pal = b.pal := rfl
@[simp] theorem Block.setVb1_dirty (b : Block) (v : Memory) : (b.setVb1 v).dirty = b.dirty := rfl
@[simp] theorem Block.setVb1_vb0 (b : Block) (v : Memory) : (b.setVb1 v).vb0 = b.vb0 := rfl
@[simp] theorem Block.setVb1_vb1 (b : Block) (v : Memory) : (b.setVb1 v).vb1 = v := rfl
@[simp] theorem Block.setVb1_lr0 (b : Block) (v : Memory) : (b.setVb1 v).lr0 = b.lr0 := rfl
@[simp] theorem Block.setVb1_lr1 (b : Block) (v : Memory) : (b.setVb1 v).lr1 = b.lr1 := rfl
@[simp] theorem Block.setVb1_wb (b : Block) (v : Memory) : (b.setVb1 v).wb = b.wb := rfl

/-! ### `Block.setLr0` -/

@[simp] theorem Block.setLr0_x (b : Block) (v : Memory) : (b.setLr0 v).x = b.x := rfl
@[simp] theorem Block.setLr0_y (b : Block) (v : Memory) : (b.setLr0 v).y = b.y := rfl
@[simp] theorem Block.setLr0_p (b : Block) (v : Memory) : (b.setLr0 v).p = b.p := rfl
@[simp] theorem Block.setLr0_aix (b : Block) (v : Memory) : (b.setLr0 v).aix = b.aix := rfl
@[simp] theorem Block.setLr0_aiy (b : Block) (v : Memory) : (b.setLr0 v).aiy = b.aiy := rfl
@[simp] theorem Block.setLr0_both (b : Block) (v : Memory) : (b.setLr0 v).both = b.both := rfl
@[simp] theorem Block.setLr0_vbank (b : Block) (v : Memory) : (b.setLr0 v).vbank = b.vbank := rfl
@[simp] theorem Block.setLr0_cbank (b : Block) (v : Memory) : (b.setLr0 v).cbank = b.cbank := rfl
@[simp] theorem Block.setLr0_pal (b : Block) (v : Memory) : (b.setLr0 v).pal = b.pal := rfl
@[simp] theorem Block.setLr0_dirty (b : Block) (v : Memory) : (b.setLr0 v).dirty = b.dirty := rfl
@[simp] theorem Block.setLr0_vb0 (b : Block) (v : Memory) : (b.setLr0 v).vb0 = b.vb0 := rfl
@[simp] theorem Block.setLr0_vb1 (b : Block) (v : Memory) : (b.setLr0 v).vb1 = b.vb1 := rfl
@[simp] theorem Block.setLr0_lr0 (b : Block) (v : Memory) : (b.setLr0 v).lr0 = v := rfl
@[simp] theorem Block.setLr0_lr1 (b : Block) (v : Memory) : (b.setLr0 v).lr1 = b.lr1 := rfl
@[simp] theorem Block.setLr0_wb (b : Block) (v : Memory) : (b.setLr0 v).wb = b.wb := rfl

/-! ### `Block.setLr1` -/

@[simp] theorem Block.setLr1_x (b : Block) (v : Memory) : (b.setLr1 v).x = b.x := rfl
@[simp] theorem Block.setLr1_y (b : Block) (v : Memory) : (b.setLr1 v).y = b.y := rfl
@[simp] theorem Block.setLr1_p (b : Block) (v : Memory) : (b.setLr1 v).p = b.p := rfl
@[simp] theorem Block.setLr1_aix (b : Block) (v : Memory) : (b.setLr1 v).aix = b.aix := rfl
@[simp] theorem Block.setLr1_aiy (b : Block) (v : Memory) : (b.setLr1 v).aiy = b.aiy := rfl
@[simp] theorem Block.setLr1_both (b : Block) (v : Memory) : (b.setLr1 v).both = b.both := rfl
@[simp] theorem Block.setLr1_vbank (b : Block) (v : Memory) : (b.setLr1 v).vbank = b.vbank := rfl
@[simp] theorem Block.setLr1_cbank (b : Block) (v : Memory) : (b.setLr1 v).cbank = b.cbank := rfl
@[simp] theorem Block.setLr1_pal (b : Block) (v : Memory) : (b.setLr1 v).pal = b.pal := rfl
@[simp] theorem Block.setLr1_dirty (b : Block) (v : Memory) : (b.setLr1 v).dirty = b.dirty := rfl
@[simp] theorem Block.setLr1_vb0 (b : Block) (v : Memory) : (b.setLr1 v).vb0 = b.vb0 := rfl
@[simp] theorem Block.setLr1_vb1 (b : Block) (v : Memory) : (b.setLr1 v).vb1 = b.vb1 := rfl
@[simp] theorem Block.setLr1_lr0 (b : Block) (v : Memory) : (b.setLr1 v).lr0 = b.lr0 := rfl
@[simp] theorem Block.setLr1_lr1 (b : Block) (v : Memory) : (b.setLr1 v).lr1 = v := rfl
@[simp] theorem Block.setLr1_wb (b : Block) (v : Memory) : (b.setLr1 v).wb = b.wb := rfl

/-! ### `Block.setWb` -/

@[simp] theorem Block.setWb_x (b : Block) (v : Raster) : (b.setWb v).x = b.x := rfl
@[simp] theorem Block.setWb_y (b : Block) (v : Raster) : (b.setWb v).y = b.y := rfl
@[simp] theorem Block.setWb_p (b : Block) (v : Raster) : (b.setWb v).p = b.p := rfl
@[simp] theorem Block.setWb_aix (b : Block) (v : Raster) : (b.setWb v).aix = b.aix := rfl
@[simp] theorem Block.setWb_aiy (b : Block) (v : Raster) : (b.setWb v).aiy = b.aiy := rfl
@[simp] theorem Block.setWb_both (b : Block) (v : Raster) : (b.setWb v).both = b.both := rfl
@[simp] theorem Block.setWb_vbank (b : Block) (v : Raster) : (b.setWb v).vbank = b.vbank := rfl
@[simp] theorem Block.setWb_cbank (b : Block) (v : Raster) : (b.setWb v).cbank = b.cbank := rfl
@[simp] theorem Block.setWb_pal (b : Block) (v : Raster) : (b.setWb v).pal = b.pal := rfl
@[simp] theorem Block.setWb_dirty (b : Block) (v : Raster) : (b.setWb v).dirty = b.dirty := rfl
@[simp] theorem Block.setWb_vb0 (b : Block) (v : Raster) : (b.setWb v).vb0 = b.vb0 := rfl
@[simp] theorem Block.setWb_vb1 (b : Block) (v : Raster) : (b.setWb v).vb1 = b.vb1 := rfl
@[simp] theorem Block.setWb_lr0 (b : Block) (v : Raster) : (b.setWb v).lr0 = b.lr0 := rfl
@[simp] theorem Block.setWb_lr1 (b : Block) (v : Raster) : (b.setWb v).lr1 = b.lr1 := rfl
@[simp] theorem Block.setWb_wb (b : Block) (v : Raster) : (b.setWb v).wb = v := rfl

/-! ### The ports -/

@[simp] theorem State.act_blk (s : State) (f : Block → Block) : (s.act f).blk = f s.blk := rfl
@[simp] theorem State.act_resetValue (s : State) (f : Block → Block) : (s.act f).resetValue = s.resetValue := rfl
@[simp] theorem State.act_spr (s : State) (f : Block → Block) : (s.act f).spr = s.spr := rfl
@[simp] theorem State.act_pending (s : State) (f : Block → Block) : (s.act f).pending = s.pending := rfl
@[simp] theorem State.act_output (s : State) (f : Block → Block) : (s.act f).output = .nothing := rfl

@[simp] theorem State.reply_blk (s : State) (v : Byte) : (s.reply v).blk = s.blk := rfl
@[simp] theorem State.reply_resetValue (s : State) (v : Byte) : (s.reply v).resetValue = s.resetValue := rfl
@[simp] theorem State.reply_spr (s : State) (v : Byte) : (s.reply v).spr = s.spr := rfl
@[simp] theorem State.reply_pending (s : State) (v : Byte) : (s.reply v).pending = s.pending := rfl
@[simp] theorem State.reply_output (s : State) (v : Byte) : (s.reply v).output = .byte v := rfl

@[simp] theorem State.emit_blk (s : State) (b : Block) (out : Raster) : (s.emit b out).blk = b := rfl
@[simp] theorem State.emit_resetValue (s : State) (b : Block) (out : Raster) : (s.emit b out).resetValue = s.resetValue := rfl
@[simp] theorem State.emit_spr (s : State) (b : Block) (out : Raster) : (s.emit b out).spr = s.spr := rfl
@[simp] theorem State.emit_pending (s : State) (b : Block) (out : Raster) : (s.emit b out).pending = s.pending := rfl
@[simp] theorem State.emit_output (s : State) (b : Block) (out : Raster) : (s.emit b out).output = .raster out := rfl

@[simp] theorem State.notAddressed_blk (s : State) : s.notAddressed.blk = s.blk := rfl
@[simp] theorem State.notAddressed_resetValue (s : State) : s.notAddressed.resetValue = s.resetValue := rfl
@[simp] theorem State.notAddressed_spr (s : State) : s.notAddressed.spr = s.spr := rfl
@[simp] theorem State.notAddressed_pending (s : State) : s.notAddressed.pending = s.pending := rfl
@[simp] theorem State.notAddressed_output (s : State) : s.notAddressed.output = .nothing := rfl

@[simp] theorem State.present_blk (s : State) (T : Word) : (s.present T).blk = s.blk := rfl
@[simp] theorem State.present_resetValue (s : State) (T : Word) : (s.present T).resetValue = s.resetValue := rfl
@[simp] theorem State.present_spr (s : State) (T : Word) : (s.present T).spr = s.spr := rfl
@[simp] theorem State.present_pending (s : State) (T : Word) : (s.present T).pending = ⟨T, s.spr⟩ :: s.pending := rfl
@[simp] theorem State.present_output (s : State) (T : Word) : (s.present T).output = s.output := rfl

/-! ### Reset -/

@[simp] theorem State.afterReset_blk (rv : Block) : (State.afterReset rv).blk = rv := rfl
@[simp] theorem State.afterReset_resetValue (rv : Block) : (State.afterReset rv).resetValue = rv := rfl
@[simp] theorem State.afterReset_spr (rv : Block) : (State.afterReset rv).spr = [] := rfl
@[simp] theorem State.afterReset_pending (rv : Block) : (State.afterReset rv).pending = [] := rfl
@[simp] theorem State.afterReset_output (rv : Block) : (State.afterReset rv).output = .nothing := rfl

/-! ### Two states are equal when their fields are -/

theorem Block.eq_of_fields {a b : Block} (hx : a.x = b.x) (hy : a.y = b.y) (hp : a.p = b.p) (haix : a.aix = b.aix)
    (haiy : a.aiy = b.aiy) (hboth : a.both = b.both) (hvbank : a.vbank = b.vbank) (hcbank : a.cbank = b.cbank)
    (hpal : a.pal = b.pal) (hdirty : a.dirty = b.dirty) (hvb0 : a.vb0 = b.vb0) (hvb1 : a.vb1 = b.vb1)
    (hlr0 : a.lr0 = b.lr0) (hlr1 : a.lr1 = b.lr1) (hwb : a.wb = b.wb) : a = b := by
  cases a
  cases b
  simp_all

end Sys2Proof.Machine
end

