-- ==== Sys2Proof/Laws/Memory.lean ====
section
/-! SUPPORT. Byte arrays, rasters, the storages of the block and the paint: what a read answers after an update, what each
update leaves alone, and that each keeps the canonical form. -/

namespace Sys2Proof.Machine

/-! ### Byte arrays -/

theorem Memory.read_write (m : Memory) (a k : Nat) (v : Byte) :
    Memory.read (Memory.write m a v) k = if k = a then v else Memory.read m k :=
  sparseRead_write unlistedByte m a k v

theorem Memory.write_write (m : Memory) (a : Nat) (v : Byte) :
    Memory.write (Memory.write m a v) a v = Memory.write m a v :=
  sparseWrite_write unlistedByte m a v

/-- A write inside the array keeps the canonical form. -/
theorem Memory.write_wf {n : Nat} {m : Memory} (h : Memory.wf n m) {a : Nat} (ha : a < n) (v : Byte) :
    Memory.wf n (Memory.write m a v) :=
  sparseWrite_wf h ha

/-! ### Rasters -/

theorem Raster.read_write (w : Raster) {x y x' y' : Nat} (hx : x < 256) (hx' : x' < 256) (c : Rgb) :
    Raster.read (Raster.write w x y c) x' y' = if x' = x ∧ y' = y then c else Raster.read w x' y' := by
  unfold Raster.read Raster.write
  rw [sparseRead_write]
  simp only [cellKey_inj hx' hx]

/-- A write inside the raster keeps the canonical form. -/
theorem Raster.write_wf {w : Raster} (h : Raster.wf w) {x y : Nat} (hx : x < 256) (hy : y < 256) (c : Rgb) :
    Raster.wf (Raster.write w x y c) :=
  sparseWrite_wf h (cellKey_lt hx hy)

/-- Two canonical rasters that show the same everywhere are the same data. -/
theorem Raster.eq_of_read_eq {w w' : Raster} (h : Raster.wf w) (h' : Raster.wf w')
    (same : ∀ x y, x < 256 → y < 256 → Raster.read w x y = Raster.read w' x y) : w = w' := by
  refine eq_of_sparseRead_eq h h' fun k => ?_
  by_cases hk : k < Param.wbW * Param.wbH
  · have := same (k % 256) (k / 256) (by omega) (by simp only [Param.wbW, Param.wbH] at hk; omega)
    unfold Raster.read cellKey at this
    simp only [Param.wbW] at this
    rwa [Nat.div_add_mod] at this
  · have outside : ∀ (l : List (Nat × Rgb)), (∀ p ∈ l, p.1 < Param.wbW * Param.wbH) →
        sparseRead unlistedCell l k = unlistedCell := by
      intro l hl
      induction l with
      | nil => rfl
      | cons q l ih =>
        have := hl q (by simp)
        unfold sparseRead
        rw [if_neg (by omega), ih fun p hp => hl p (by simp [hp])]
    rw [outside w fun p hp => (h.2 p hp).1, outside w' fun p hp => (h'.2 p hp).1]

/-! ### The storages of the block -/

@[simp] theorem Block.store_setStore (b : Block) (S S' : StoreName) (m : Memory) :
    (b.setStore S m).store S' = if S' = S then m else b.store S' := by
  cases S <;> cases S' <;> rfl

/-- What a store to `S` can change: `S`. -/
theorem Block.setStore_frame (b : Block) (S : StoreName) (m : Memory) :
    (b.setStore S m).x = b.x ∧ (b.setStore S m).y = b.y ∧ (b.setStore S m).p = b.p ∧
    (b.setStore S m).aix = b.aix ∧ (b.setStore S m).aiy = b.aiy ∧ (b.setStore S m).both = b.both ∧
    (b.setStore S m).vbank = b.vbank ∧ (b.setStore S m).cbank = b.cbank ∧ (b.setStore S m).pal = b.pal ∧
    (b.setStore S m).dirty = b.dirty ∧ (b.setStore S m).wb = b.wb := by
  cases S <;> simp [Block.setStore]

theorem Block.memRead_memWrite (b : Block) (S S' : StoreName) (a k : Nat) (v : Byte) :
    (b.memWrite S a v).memRead S' k = if S' = S ∧ k = a then v else b.memRead S' k := by
  unfold Block.memWrite Block.memRead
  rw [Block.store_setStore]
  by_cases h : S' = S
  · subst h
    simp [Memory.read_write]
  · simp [h]

/-- The nibble written is the nibble read, and every other nibble is as before (R85). -/
theorem Block.nibRead_nibWrite (b : Block) (q q' : Spot) (v : Nibble) :
    (b.nibWrite q v).nibRead q' = if q' = q then v else b.nibRead q' := by
  rcases q with ⟨S, a, h⟩
  rcases q' with ⟨S', a', h'⟩
  unfold Block.nibWrite Block.nibRead
  simp only [Block.memRead_memWrite, Spot.mk.injEq]
  by_cases hS : S' = S ∧ a' = a
  · rw [if_pos hS, hi_mergeNibble, lo_mergeNibble]
    obtain ⟨rfl, rfl⟩ := hS
    cases h <;> cases h' <;> simp
  · have hq : ¬ (S' = S ∧ a' = a ∧ h' = h) := fun e => hS ⟨e.1, e.2.1⟩
    rw [if_neg hS, if_neg hq]

theorem Block.wf_setStore {b : Block} (h : b.wf) (S : StoreName) {m : Memory} (hm : Memory.wf S.size m) :
    (b.setStore S m).wf := by
  obtain ⟨h0, h1, h2, h3, h4⟩ := h
  cases S
  · exact ⟨hm, h1, h2, h3, h4⟩
  · exact ⟨h0, hm, h2, h3, h4⟩
  · exact ⟨h0, h1, hm, h3, h4⟩
  · exact ⟨h0, h1, h2, hm, h4⟩

theorem Block.wf_store {b : Block} (h : b.wf) (S : StoreName) : Memory.wf S.size (b.store S) := by
  obtain ⟨h0, h1, h2, h3, -⟩ := h
  cases S
  · exact h0
  · exact h1
  · exact h2
  · exact h3

theorem Block.wf_memWrite {b : Block} (h : b.wf) (S : StoreName) {a : Nat} (ha : a < S.size) (v : Byte) :
    (b.memWrite S a v).wf :=
  Block.wf_setStore h S (Memory.write_wf (Block.wf_store h S) ha v)

theorem Block.wf_nibWrite {b : Block} (h : b.wf) (q : Spot) (hq : q.index < q.store.size) (v : Nibble) :
    (b.nibWrite q v).wf :=
  Block.wf_memWrite h q.store hq _

/-! ### Paint -/

/-- A paint puts the current palette entry at `(x, y)` and leaves every other cell (R100). -/
theorem Block.read_paintOn (b : Block) (w : Raster) {x x' : Nat} (y y' : Nat) (hx : x < 256) (hx' : x' < 256) (v : Nibble) :
    Raster.read (b.paintOn w x y v) x' y' =
      if x' = x ∧ y' = y then b.palAt (bitmapIndex b.cbank v) else Raster.read w x' y' :=
  Raster.read_write w hx hx' _

theorem Block.paintOn_wf (b : Block) {w : Raster} (h : Raster.wf w) {x y : Nat} (hx : x < 256) (hy : y < 256) (v : Nibble) :
    Raster.wf (b.paintOn w x y v) :=
  Raster.write_wf h hx hy _

theorem Block.wf_setWb {b : Block} (h : b.wf) {w : Raster} (hw : Raster.wf w) : (b.setWb w).wf :=
  ⟨h.1, h.2.1, h.2.2.1, h.2.2.2.1, hw⟩

end Sys2Proof.Machine
end

