-- ==== Sys2Proof/Laws/IndexedPort.lean ====
section
/-! SUPPORT. The indexed port's shared parts: the store of a pixel write, and the increments. -/

namespace Sys2Proof.Machine

/-- A store to one of the four arrays changes that array alone; said once for `memWrite` and `nibWrite`. -/
theorem Block.memWrite_frame (b : Block) (S : StoreName) (a : Nat) (v : Byte) :
    (b.memWrite S a v).x = b.x ∧ (b.memWrite S a v).y = b.y ∧ (b.memWrite S a v).p = b.p ∧
    (b.memWrite S a v).aix = b.aix ∧ (b.memWrite S a v).aiy = b.aiy ∧ (b.memWrite S a v).both = b.both ∧
    (b.memWrite S a v).vbank = b.vbank ∧ (b.memWrite S a v).cbank = b.cbank ∧ (b.memWrite S a v).pal = b.pal ∧
    (b.memWrite S a v).dirty = b.dirty ∧ (b.memWrite S a v).wb = b.wb :=
  Block.setStore_frame b S _

/-- The stored side of a pixel write changes the four arrays at most. -/
theorem Block.storePixel_frame (b : Block) (v : Nibble) :
    (b.storePixel v).x = b.x ∧ (b.storePixel v).y = b.y ∧ (b.storePixel v).p = b.p ∧
    (b.storePixel v).aix = b.aix ∧ (b.storePixel v).aiy = b.aiy ∧ (b.storePixel v).both = b.both ∧
    (b.storePixel v).vbank = b.vbank ∧ (b.storePixel v).cbank = b.cbank ∧ (b.storePixel v).pal = b.pal ∧
    (b.storePixel v).dirty = b.dirty ∧ (b.storePixel v).wb = b.wb := by
  unfold Block.storePixel
  split
  · exact Block.memWrite_frame b _ _ _
  · simp

/-- The increments: each coordinate by one, modulo 256, exactly when bit 7 of its register is 0. -/
theorem Block.advance_eq (b : Block) :
    b.advance = { b with
      x := if autoIncrement b.aix then b.x + 1 else b.x
      y := if autoIncrement b.aiy then b.y + 1 else b.y } := by
  unfold Block.advance
  cases autoIncrement b.aix <;> cases h : autoIncrement b.aiy <;> simp [Block.setX, Block.setY, h]

/-- Everything a pixel write does, in terms of the block before it. -/
theorem Block.plot_eq (b : Block) (d : Byte) :
    b.plot d =
      { (b.setP d).storePixel (lo d) with
        wb := Raster.write b.wb b.x.toNat b.y.toNat (b.palAt (bitmapIndex b.cbank (lo d)))
        x := if autoIncrement b.aix then b.x + 1 else b.x
        y := if autoIncrement b.aiy then b.y + 1 else b.y } := by
  have h := Block.storePixel_frame (b.setP d) (lo d)
  unfold Block.plot
  simp only [Block.advance_eq, Block.paint, Block.paintOn, Block.setWb, h, Block.setP_x, Block.setP_y, Block.setP_aix, Block.setP_aiy,
    Block.setP_cbank, Block.setP_wb, Block.palAt, Block.setP_pal]

theorem Block.wf_storePixel {b : Block} (h : b.wf) (v : Nibble) : (b.storePixel v).wf := by
  unfold Block.storePixel
  split
  · rename_i hy
    exact Block.wf_nibWrite h _ (locate_inside hy) v
  · exact h

theorem Block.wf_plot {b : Block} (h : b.wf) (d : Byte) : (b.plot d).wf := by
  have hs : ((b.setP d).storePixel (lo d)).wf := Block.wf_storePixel (b := b.setP d) h (lo d)
  rw [Block.plot_eq]
  exact ⟨hs.1, hs.2.1, hs.2.2.1, hs.2.2.2.1, Raster.write_wf h.2.2.2.2 b.x.isLt b.y.isLt _⟩

end Sys2Proof.Machine
end

