-- ==== Sys2Proof/Laws/PixelWriter.lean ====
section
/-! SUPPORT. The direct window's placements and its write, mode by mode. -/

namespace Sys2Proof.Machine

/-! ### The two placements of R91 -/

/-- The cells of the bank-0 placement: low nibble at the first column, high nibble beside it. -/
theorem Block.read_placeBank0 (b : Block) (w : Raster) {r : Nat} (hr : r < Param.bankSize) (d : Byte) {x : Nat} (y : Nat)
    (hx : x < 256) :
    Raster.read (b.placeBank0 w r d) x y =
      if x = windowCol r + 1 ∧ y = windowRow r then b.palAt (bitmapIndex b.cbank (hi d))
      else if x = windowCol r ∧ y = windowRow r then b.palAt (bitmapIndex b.cbank (lo d))
      else Raster.read w x y := by
  have := window_range hr
  unfold Block.placeBank0
  rw [Block.read_paintOn _ _ _ _ (by omega) hx, Block.read_paintOn _ _ _ _ (by omega) hx]

/-- The cells of the bank-1 placement: low nibble at the third column, high nibble at the fourth. -/
theorem Block.read_placeBank1 (b : Block) (w : Raster) {r : Nat} (hr : r < Param.bankSize) (d : Byte) {x : Nat} (y : Nat)
    (hx : x < 256) :
    Raster.read (b.placeBank1 w r d) x y =
      if x = windowCol r + 3 ∧ y = windowRow r then b.palAt (bitmapIndex b.cbank (hi d))
      else if x = windowCol r + 2 ∧ y = windowRow r then b.palAt (bitmapIndex b.cbank (lo d))
      else Raster.read w x y := by
  have := window_range hr
  unfold Block.placeBank1
  rw [Block.read_paintOn _ _ _ _ (by omega) hx, Block.read_paintOn _ _ _ _ (by omega) hx]

theorem Block.placeBank0_wf (b : Block) {w : Raster} (h : Raster.wf w) {r : Nat} (hr : r < Param.bankSize) (d : Byte) :
    Raster.wf (b.placeBank0 w r d) := by
  have := window_range hr
  exact Block.paintOn_wf b (Block.paintOn_wf b h (by omega) (by omega) _) (by omega) (by omega) _

theorem Block.placeBank1_wf (b : Block) {w : Raster} (h : Raster.wf w) {r : Nat} (hr : r < Param.bankSize) (d : Byte) :
    Raster.wf (b.placeBank1 w r d) := by
  have := window_range hr
  exact Block.paintOn_wf b (Block.paintOn_wf b h (by omega) (by omega) _) (by omega) (by omega) _

/-! ### The window write -/

/-- Everything a direct window write does (R92): the banks by mode, and `WB` by the placements of that mode. -/
theorem Block.writeDirect_eq (b : Block) (r : Nat) (d : Byte) :
    b.writeDirect r d =
      match writeMode b.both b.vbank with
      | .fanOut => { b with vb0 := Memory.write b.vb0 r d
                            vb1 := Memory.write b.vb1 r d
                            wb := b.placeBank1 (b.placeBank0 b.wb r d) r d }
      | .bank1 => { b with vb1 := Memory.write b.vb1 r d
                           wb := b.placeBank1 b.wb r d }
      | .bank0 => { b with vb0 := Memory.write b.vb0 r d
                           wb := b.placeBank0 b.wb r d } := by
  unfold Block.writeDirect
  cases writeMode b.both b.vbank <;> rfl

theorem Block.wf_writeDirect {b : Block} (h : b.wf) {r : Nat} (hr : r < Param.bankSize) (d : Byte) :
    (b.writeDirect r d).wf := by
  have hw0 : ∀ c : Block, c.wf → (c.memWrite .vb0 r d).wf := fun c hc => Block.wf_memWrite hc .vb0 hr d
  have hw1 : ∀ c : Block, c.wf → (c.memWrite .vb1 r d).wf := fun c hc => Block.wf_memWrite hc .vb1 hr d
  have hwb := h.2.2.2.2
  unfold Block.writeDirect
  split
  · exact Block.wf_setWb (hw1 _ (hw0 b h)) (Block.placeBank1_wf b (Block.placeBank0_wf b hwb hr d) hr d)
  · exact Block.wf_setWb (hw1 b h) (Block.placeBank1_wf b hwb hr d)
  · exact Block.wf_setWb (hw0 b h) (Block.placeBank0_wf b hwb hr d)

end Sys2Proof.Machine
end

