-- ==== Sys2Proof/Laws/Framebuffer.lean ====
section
/-! SUPPORT. The rebuild, the renderer and FRAME: what each can change, one pass of each loop, and canonical form. -/

namespace Sys2Proof.Machine

/-- A fold keeps what each of its steps keeps. -/
theorem foldl_keeps {σ ι : Type} (P : σ → Prop) (f : σ → ι → σ) (l : List ι)
    (step : ∀ s i, i ∈ l → P s → P (f s i)) (s : σ) (h : P s) : P (l.foldl f s) := by
  induction l generalizing s with
  | nil => exact h
  | cons i l ih => exact ih (fun s j hj => step s j (by simp [hj])) _ (step s i (by simp) h)

/-! ### The rebuild -/

/-- The four cells one pass of the rebuild paints (R102). -/
theorem Block.read_rebuildAt (b : Block) (w : Raster) {r : Nat} (hr : r < Param.bankSize) {x : Nat} (y : Nat) (hx : x < 256) :
    Raster.read (b.rebuildAt w r) x y =
      if x = windowCol r + 3 ∧ y = windowRow r then b.palAt (bitmapIndex b.cbank (hi (b.memRead .vb1 r)))
      else if x = windowCol r + 2 ∧ y = windowRow r then b.palAt (bitmapIndex b.cbank (lo (b.memRead .vb1 r)))
      else if x = windowCol r + 1 ∧ y = windowRow r then b.palAt (bitmapIndex b.cbank (hi (b.memRead .vb0 r)))
      else if x = windowCol r ∧ y = windowRow r then b.palAt (bitmapIndex b.cbank (lo (b.memRead .vb0 r)))
      else Raster.read w x y := by
  unfold Block.rebuildAt
  rw [Block.read_placeBank1 _ _ hr _ _ hx, Block.read_placeBank0 _ _ hr _ _ hx]

theorem Block.rebuildAt_wf (b : Block) {w : Raster} (h : Raster.wf w) {r : Nat} (hr : r < Param.bankSize) :
    Raster.wf (b.rebuildAt w r) :=
  Block.placeBank1_wf b (Block.placeBank0_wf b h hr _) hr _

/-- The rebuild changes `WB` alone (R102: it writes no bank byte; `BOTH` and `VBANK` are neither read nor changed). -/
theorem Block.rebuild_eq (b : Block) : b.rebuild = { b with wb := b.rebuiltWb } := rfl

theorem Block.rebuiltWb_wf {b : Block} (h : Raster.wf b.wb) : Raster.wf b.rebuiltWb := by
  unfold Block.rebuiltWb
  exact foldl_keeps Raster.wf _ _ (fun w r hr hw => Block.rebuildAt_wf b hw (List.mem_range.mp hr)) b.wb h

theorem Block.wf_rebuild {b : Block} (h : b.wf) : b.rebuild.wf :=
  Block.wf_setWb h (Block.rebuiltWb_wf h.2.2.2.2)

/-- Step 1 of FRAME: `WB` rebuilt when `dirty` was set, `dirty` clear in every case. -/
theorem Block.refresh_eq (b : Block) :
    b.refresh = { b with wb := if b.dirty then b.rebuiltWb else b.wb
                         dirty := false } := by
  cases h : b.dirty
  · have : b = { b with dirty := false } := by rw [← h]
    simpa [Block.refresh, h] using this
  · simp [Block.refresh, h, Block.rebuild, Block.setWb, Block.setDirty]

theorem Block.wf_refresh {b : Block} (h : b.wf) : b.refresh.wf := by
  unfold Block.refresh
  split
  · exact Block.wf_rebuild h
  · exact h

/-! ### The renderer -/

/-- The cells one pixel of a tile can change. -/
theorem read_drawPixel (t : TileSet) (pal : Fin 64 → Rgb) (tile : Byte) (bank : Fin 4) (xflip yflip : Bool)
    (x y : Int) (tpen : Nibble) (row : Nat) (out : Raster) (col : Nat) {px : Nat} (py : Nat) (hpx : px < 256) :
    Raster.read (drawPixel t pal tile bank xflip yflip x y tpen row out col) px py =
      let pen := t.pen tile (mirror xflip t.lastCol col) (mirror yflip t.lastRow row)
      if pen ≠ tpen ∧ (px : Int) = x + col ∧ (py : Int) = y + row ∧ py < 256 then pal (bankIndex bank pen)
      else Raster.read out px py := by
  unfold drawPixel
  simp only []
  split
  · rename_i h
    rw [Raster.read_write _ (by omega) hpx]
    have hcell : (px = (x + (col : Int)).toNat ∧ py = (y + (row : Int)).toNat) ↔
        ((px : Int) = x + col ∧ (py : Int) = y + row ∧ py < 256) := by omega
    simp only [hcell, h.1, ne_eq, not_false_eq_true, true_and]
  · rename_i h
    rw [if_neg]
    rintro ⟨hpen, h1, h2, h3⟩
    exact h ⟨hpen, by omega, by omega⟩

theorem drawPixel_wf (t : TileSet) (pal : Fin 64 → Rgb) (tile : Byte) (bank : Fin 4) (xflip yflip : Bool)
    (x y : Int) (tpen : Nibble) (row : Nat) {out : Raster} (col : Nat) (h : Raster.wf out) :
    Raster.wf (drawPixel t pal tile bank xflip yflip x y tpen row out col) := by
  unfold drawPixel
  simp only []
  split
  · exact Raster.write_wf h (by omega) (by omega) _
  · exact h

theorem drawTile_wf (t : TileSet) (pal : Fin 64 → Rgb) {out : Raster} (tile : Byte) (bank : Fin 4) (xflip yflip : Bool)
    (x y : Int) (tpen : Nibble) (h : Raster.wf out) : Raster.wf (drawTile t pal out tile bank xflip yflip x y tpen) :=
  foldl_keeps Raster.wf _ _
    (fun _ _ _ ho => foldl_keeps Raster.wf _ _ (fun _ _ _ ho => drawPixel_wf _ _ _ _ _ _ _ _ _ _ _ ho) _ ho) out h

theorem drawSprites_wf (t : TileSet) (b : Block) (spr : Memory) {out : Raster} (h : Raster.wf out) :
    Raster.wf (drawSprites t b spr out) :=
  foldl_keeps Raster.wf _ _ (fun _ _ _ ho => drawTile_wf _ _ _ _ _ _ _ _ _ ho) out h

/-! ### FRAME -/

@[simp] theorem State.frameWith_blk (t : TileSet) (s : State) : (s.frameWith t).blk = s.blk.refresh := rfl
@[simp] theorem State.frameWith_resetValue (t : TileSet) (s : State) : (s.frameWith t).resetValue = s.resetValue := rfl
@[simp] theorem State.frameWith_spr (t : TileSet) (s : State) : (s.frameWith t).spr = s.spr := rfl
@[simp] theorem State.frameWith_pending (t : TileSet) (s : State) : (s.frameWith t).pending = s.pending := rfl
@[simp] theorem State.frameWith_output (t : TileSet) (s : State) :
    (s.frameWith t).output = .raster (Block.compose t s.blk.refresh s.spr) := rfl

end Sys2Proof.Machine
end

