-- ==== Sys2Proof/Laws/PerInstr.lean ====
section
/-! SUPPORT. Statements about every operation as syntax, one lemma per constructor.
Family `InRow`: the word of a well-formed operation selects the operation's own row of R51. -/

namespace Sys2Proof.Laws

/-- The encoded word selects the operation's row. -/
def InRow.Statement (i : Instr) : Prop := i.wellFormed = true → i.row.selects (encode i) = true

/-- A packed word selects a row when its fields do. -/
theorem selects_packWord {row : OpRow} {k c : Nat} (hmask : row.mask = BitVec.allOnes 27 <<< k)
    (hbits : row.bits = BitVec.ofNat 27 (c * 2 ^ k)) (hk : k ≤ 27) (hc : c < 2 ^ (27 - k)) {kd : BitVec 2} {a : BusAddr}
    {d : Byte} (hup : (2 ^ 25 * kd.toNat + 2 ^ 8 * a.toNat + d.toNat) / 2 ^ k = c)
    (hlo : row.addrLo ≤ a.toNat) (hhi : a.toNat ≤ row.addrHi) : row.selects (packWord kd a d) = true := by
  refine (selects_iff hmask hbits hk hc _).mpr ⟨by rw [packWord_toNat]; exact hup, ?_⟩
  rw [← addrOf_toNat, addrOf_packWord]
  exact ⟨hlo, hhi⟩

/-- A row with no extra bound takes every address. -/
theorem addr_le (a : BusAddr) : a.toNat ≤ 0x1FFFF := Nat.le_of_lt_succ a.isLt

theorem InRow.setx (d : Byte) : InRow.Statement (.setx d) := fun _ => by
  have := d.isLt
  exact selects_packWord (k := 8) (c := 0x00000) mask8 rfl (by decide) (by decide) (by simp; omega) (Nat.zero_le _) (addr_le _)

theorem InRow.sety (d : Byte) : InRow.Statement (.sety d) := fun _ => by
  have := d.isLt
  exact selects_packWord (k := 8) (c := 0x00001) mask8 rfl (by decide) (by decide) (by simp; omega) (Nat.zero_le _) (addr_le _)

theorem InRow.plot (d : Byte) : InRow.Statement (.plot d) := fun _ => by
  have := d.isLt
  exact selects_packWord (k := 8) (c := 0x00002) mask8 rfl (by decide) (by decide) (by simp; omega) (Nat.zero_le _) (addr_le _)

theorem InRow.getx : InRow.Statement .getx := fun _ => by decide
theorem InRow.gety : InRow.Statement .gety := fun _ => by decide
theorem InRow.peek : InRow.Statement .peek := fun _ => by decide

theorem InRow.vwr (r : BitVec 14) (d : Byte) : InRow.Statement (.vwr r d) := fun h => by
  have hr : r.toNat < 0x3A00 := by simpa [Instr.wellFormed, Param.bankSize] using h
  have ha : (BitVec.ofNat 17 (Param.winBase + r.toNat)).toNat = 0x600 + r.toNat := by
    simp [Param.winBase]
    omega
  have := d.isLt
  refine selects_packWord (k := 22) (c := 0) mask22 rfl (by decide) (by decide) ?_ ?_ ?_ <;> rw [ha]
  · simp
    omega
  · exact Nat.le_add_right _ _
  · show 0x600 + r.toNat ≤ 0x3FFF
    omega

theorem InRow.pal (o : BitVec 7) (d : Byte) : InRow.Statement (.pal o d) := fun _ => by
  have ho := o.isLt
  have ha : (BitVec.ofNat 17 (Param.palBase + o.toNat)).toNat = 0x5500 + o.toNat := by
    simp [Param.palBase]
    omega
  have := d.isLt
  refine selects_packWord (k := 15) (c := 0xAA) mask15 rfl (by decide) (by decide) ?_ ?_ ?_ <;> rw [ha]
  · simp
    omega
  · exact Nat.zero_le _
  · show 0x5500 + o.toNat ≤ 0x1FFFF
    omega

theorem InRow.aix (d : Byte) : InRow.Statement (.aix d) := fun _ => by
  have := d.isLt
  exact selects_packWord (k := 8) (c := 0x5580) mask8 rfl (by decide) (by decide) (by simp [Param.aixAddr]; omega) (Nat.zero_le _) (addr_le _)

theorem InRow.aiy (d : Byte) : InRow.Statement (.aiy d) := fun _ => by
  have := d.isLt
  exact selects_packWord (k := 8) (c := 0x5581) mask8 rfl (by decide) (by decide) (by simp [Param.aiyAddr]; omega) (Nat.zero_le _) (addr_le _)

theorem InRow.both (d : Byte) : InRow.Statement (.both d) := fun _ => by
  have := d.isLt
  exact selects_packWord (k := 8) (c := 0x5584) mask8 rfl (by decide) (by decide) (by simp [Param.bothAddr]; omega) (Nat.zero_le _) (addr_le _)

theorem InRow.vbank (d : Byte) : InRow.Statement (.vbank d) := fun _ => by
  have := d.isLt
  exact selects_packWord (k := 8) (c := 0x5586) mask8 rfl (by decide) (by decide) (by simp [Param.vbankAddr]; omega) (Nat.zero_le _) (addr_le _)

theorem InRow.cbank (d : Byte) : InRow.Statement (.cbank d) := fun _ => by
  have := d.isLt
  exact selects_packWord (k := 8) (c := 0x5587) mask8 rfl (by decide) (by decide) (by simp [Param.cbankAddr]; omega) (Nat.zero_le _) (addr_le _)

theorem InRow.vwr1 (r : BitVec 14) (d : Byte) : InRow.Statement (.vwr1 r d) := fun h => by
  have hr : r.toNat < 0x3A00 := by simpa [Instr.wellFormed, Param.bankSize] using h
  have ha : (BitVec.ofNat 17 (Param.win1Base + r.toNat)).toNat = 0x10600 + r.toNat := by
    simp [Param.win1Base]
    omega
  have := d.isLt
  refine selects_packWord (k := 22) (c := 4) mask22 rfl (by decide) (by decide) ?_ ?_ ?_ <;> rw [ha]
  · simp
    omega
  · exact Nat.le_add_right _ _
  · show 0x10600 + r.toNat ≤ 0x13FFF
    omega

theorem InRow.frame : InRow.Statement .frame := fun _ => by decide
theorem InRow.reset : InRow.Statement .reset := fun _ => by decide

end Sys2Proof.Laws
end

