-- ==== Sys2Proof/Laws/Step.lean ====
section
/-! SUPPORT. What each arm of exec is, what an operation can do to the ports, and what one step can do. -/

namespace Sys2Proof.Machine

/-! ### The arms -/

@[simp] theorem exec_setx (d : Byte) (s : State) : exec (.setx d) s = .next (s.act (·.setX d)) := rfl
@[simp] theorem exec_sety (d : Byte) (s : State) : exec (.sety d) s = .next (s.act (·.setY d)) := rfl
@[simp] theorem exec_plot (d : Byte) (s : State) : exec (.plot d) s = .next (s.act (·.plot d)) := rfl
@[simp] theorem exec_getx (s : State) : exec .getx s = .next (s.reply s.blk.x) := rfl
@[simp] theorem exec_gety (s : State) : exec .gety s = .next (s.reply s.blk.y) := rfl
@[simp] theorem exec_peek (s : State) : exec .peek s = .next (s.reply s.blk.peekValue) := rfl
@[simp] theorem exec_vwr (r : BitVec 14) (d : Byte) (s : State) :
    exec (.vwr r d) s = .next (s.act fun b => if r.toNat < Param.bankSize then b.writeDirect r.toNat d else b) := rfl
@[simp] theorem exec_pal (o : BitVec 7) (d : Byte) (s : State) : exec (.pal o d) s = .next (s.act (·.writePalette o d)) := rfl
@[simp] theorem exec_aix (d : Byte) (s : State) : exec (.aix d) s = .next (s.act (·.setAix d)) := rfl
@[simp] theorem exec_aiy (d : Byte) (s : State) : exec (.aiy d) s = .next (s.act (·.setAiy d)) := rfl
@[simp] theorem exec_both (d : Byte) (s : State) : exec (.both d) s = .next (s.act (·.setBoth d)) := rfl
@[simp] theorem exec_vbank (d : Byte) (s : State) : exec (.vbank d) s = .next (s.act (·.setVbank d)) := rfl
@[simp] theorem exec_cbank (d : Byte) (s : State) : exec (.cbank d) s = .next (s.act (·.setCbank d)) := rfl
@[simp] theorem exec_vwr1 (r : BitVec 14) (d : Byte) (s : State) :
    exec (.vwr1 r d) s = .next (s.act fun b => if r.toNat < Param.bankSize then b.memWrite .vb1 r.toNat d else b) := rfl
@[simp] theorem exec_frame (s : State) : exec .frame s = .next (s.frameWith Config.tiles) := rfl
@[simp] theorem exec_reset (s : State) : exec .reset s = .next (s.act fun _ => s.resetValue) := rfl

/-- No operation touches what the environment presents, nor `ResetValue`. -/
theorem exec_ports {i : Instr} {s t : State} (h : exec i s = .next t) :
    t.resetValue = s.resetValue ∧ t.spr = s.spr ∧ t.pending = s.pending := by
  cases i <;> simp at h <;> subst h <;> exact ⟨rfl, rfl, rfl⟩

/-! ### Fetch and step -/

theorem fetch_nil {s : State} (h : s.pending = []) : s.fetch = none := by
  simp [State.fetch, h]

theorem fetch_cons {s : State} {q : Presented} {rest : List Presented} (h : s.pending = q :: rest) :
    s.fetch = some (q.word, { s with pending := rest, spr := q.spr }) := by
  simp [State.fetch, h]

/-- Everything a step that goes on can be: idle, an access that is no operation, or the operation presented. -/
theorem step_cases {s t : State} (h : step s = .next t) :
    (s.pending = [] ∧ t = s) ∨
    (∃ q rest e, s.pending = q :: rest ∧ decode q.word = .error e ∧
      t = ({ s with pending := rest, spr := q.spr } : State).notAddressed) ∨
    (∃ q rest i, s.pending = q :: rest ∧ decode q.word = .ok i ∧
      exec i { s with pending := rest, spr := q.spr } = .next t) := by
  cases hp : s.pending with
  | nil =>
    rw [step, fetch_nil hp] at h
    exact .inl ⟨rfl, by simpa using h.symm⟩
  | cons q rest =>
    rw [step, fetch_cons hp] at h
    cases hd : decode q.word with
    | error e =>
      simp only [hd] at h
      exact .inr (.inl ⟨q, rest, e, rfl, hd, by simpa using h.symm⟩)
    | ok i =>
      simp only [hd] at h
      exact .inr (.inr ⟨q, rest, i, rfl, hd, h⟩)

end Sys2Proof.Machine
end

