-- ==== Sys2Proof/Tests/Slice0.lean ====
section
/-! SUPPORT. The model's own tests: ill-formed terms refused, words of spec/30_encoding.md R57 and spec/95_test_vectors.md
decoded, at most two one-step vectors an operation, and a witness for the hypotheses of each obligation that has some.
Expected results are the spec's. -/

namespace Sys2Proof.Tests

open Sys2Proof Sys2Proof.Machine Sys2Proof.Claims

/-! ### Helpers -/

/-- `ZeroState` (R143) with the block changed to `b`. -/
def start (b : Block) : State := { State.reset with blk := b }

/-- The state an outcome goes on in. -/
def goesTo : Host.Outcome State Fault Refusal → Option State
  | .next t => some t
  | .fault _ => none
  | .refused _ => none

/-- Something of the state one operation leads to. -/
def after {α : Type} (i : Instr) (b : Block) (f : State → α) : Option α := (goesTo (exec i (start b))).map f

/-- A state in which the word `T` is presented next. -/
def presenting (T : Word) : State := State.reset.present T

/-! ### Well-formedness: one ill-formed term for each check, and the largest offset that is well formed -/

theorem test_wf_refuses_vwr_3A00 : (Instr.vwr 0x3A00 0x00).wellFormed = false := by decide
theorem test_wf_refuses_vwr1_3A00 : (Instr.vwr1 0x3A00 0x00).wellFormed = false := by decide
theorem test_wf_accepts_last_offsets :
    (Instr.vwr 0x39FF 0xFF).wellFormed = true ∧ (Instr.vwr1 0x39FF 0xFF).wellFormed = true := by decide

/-! ### Decoding: V-ENC and R57, each word the kind in 26:25, the address in 24:8, the datum in 7:0 -/

theorem test_decode_setx : decode 0b00_00000000000000000_00010010#27 = .ok (.setx 0x12) := by decide
theorem test_decode_sety : decode 0b00_00000000000000001_11111111#27 = .ok (.sety 0xFF) := by decide
theorem test_decode_plot : decode 0b00_00000000000000010_00000101#27 = .ok (.plot 0x05) := by decide
theorem test_decode_getx : decode 0b01_00000000000000000_00000000#27 = .ok .getx := by decide
theorem test_decode_gety : decode 0b01_00000000000000001_00000000#27 = .ok .gety := by decide
theorem test_decode_peek_ignores_data : decode 0b01_00000000000000010_10101011#27 = .ok .peek := by decide
theorem test_decode_vwr : decode 0b00_00001000000100000_10101011#27 = .ok (.vwr 0x0A20 0xAB) := by decide
theorem test_decode_vwr_first : decode 0x0060000#27 = .ok (.vwr 0x0000 0x00) := by decide
theorem test_decode_vwr_last : decode 0x03FFFFF#27 = .ok (.vwr 0x39FF 0xFF) := by decide
theorem test_decode_pal : decode 0b00_00101010101000001_00000000#27 = .ok (.pal 0x41 0x00) := by decide
theorem test_decode_pal_last : decode 0x0557F5A#27 = .ok (.pal 0x7F 0x5A) := by decide
theorem test_decode_aix : decode 0b00_00101010110000000_10000000#27 = .ok (.aix 0x80) := by decide
theorem test_decode_aiy : decode 0b00_00101010110000001_00000000#27 = .ok (.aiy 0x00) := by decide
theorem test_decode_both : decode 0b00_00101010110000100_10000000#27 = .ok (.both 0x80) := by decide
theorem test_decode_vbank : decode 0b00_00101010110000110_10000000#27 = .ok (.vbank 0x80) := by decide
theorem test_decode_cbank : decode 0b00_00101010110000111_10000000#27 = .ok (.cbank 0x80) := by decide
theorem test_decode_vwr1 : decode 0b00_10000011000000000_11111111#27 = .ok (.vwr1 0x0000 0xFF) := by decide
theorem test_decode_vwr1_last : decode 0x13FFFFF#27 = .ok (.vwr1 0x39FF 0xFF) := by decide
theorem test_decode_frame_ignores_fields : decode 0x4ABCDEF#27 = .ok .frame := by decide
theorem test_decode_reset_ignores_fields : decode 0x7FFFFFF#27 = .ok .reset := by decide

/-- The words V-ENC lists as selecting no row. -/
theorem test_decode_undecoded :
    decode 0x0000300#27 = .error (.write 0x0003) ∧ decode 0x00005FF#27 = .error (.write 0x0005) ∧
    decode 0x0400000#27 = .error (.write 0x4000) ∧ decode 0x0558200#27 = .error (.write 0x5582) ∧
    decode 0x0558300#27 = .error (.write 0x5583) ∧ decode 0x0558500#27 = .error (.write 0x5585) ∧
    decode 0x0558800#27 = .error (.write 0x5588) ∧ decode 0x10000FF#27 = .error (.write 0x10000) ∧
    decode 0x1400000#27 = .error (.write 0x14000) ∧ decode 0x2000300#27 = .error (.read 0x0003) ∧
    decode 0x2060000#27 = .error (.read 0x0600) ∧ decode 0x2550000#27 = .error (.read 0x5500) ∧
    decode 0x2558000#27 = .error (.read 0x5580) := by decide

/-- Encoding (V-ENC, R57): the words the other way round. -/
theorem test_encode :
    encode (.vwr 0x0A20 0xAB) = 0x01020AB#27 ∧ encode (.pal 0x41 0x00) = 0x0554100#27 ∧
    encode (.cbank 0x80) = 0x0558780#27 ∧ encode (.vwr1 0x0000 0xFF) = 0x10600FF#27 ∧ encode .frame = 0x4000000#27 ∧
    encode .reset = 0x6000000#27 ∧ encode .peek = 0x2000200#27 := by decide

/-- Every row's word is performed as the first operation after reset. -/
theorem test_step_performs_each_row :
    ([0x0000012, 0x00001FF, 0x0000205, 0x2000000, 0x2000100, 0x2000200, 0x01020AB, 0x05500FF, 0x0558080, 0x0558100,
      0x0558480, 0x0558680, 0x0558780, 0x10600FF, 0x4000000, 0x6000000] : List Nat).all
      (fun w => (decodeTableWord 32 w).isSome && (goesTo (step (State.reset.withFetchWord 32 w))).isSome) = true := by decide

/-! ### The indexed port (V-IDX) -/

theorem test_setx : after (.setx 0x82) Block.zero (·.blk) = some { Block.zero with x := 0x82 } := by decide
theorem test_sety : after (.sety 0x05) Block.zero (·.blk) = some { Block.zero with y := 0x05 } := by decide

/-- The worked example of R86. -/
theorem test_plot_merges_low_nibble :
    after (.plot 0x07)
      (({ Block.zero with x := 0x82, y := 0x40, aix := 0x00, aiy := 0x80, vb1 := [(0x0A20, 0x5C)] }).setPal 7 ⟨1, 2, 3⟩)
      (fun t => (t.blk.vb1, t.blk.wb, [t.blk.x, t.blk.y, t.blk.p])) =
      some ([(0x0A20, 0x57)], [(0x4082, ⟨1, 2, 3⟩)], [0x83, 0x40, 0x07]) := by decide

/-- Both increments wrap without a carry. -/
theorem test_plot_wraps :
    after (.plot 0x0F) { Block.zero with x := 0xFF, y := 0xFF }
      (fun t => (t.blk.vb1, t.blk.x, t.blk.y)) = some ([(0x39FF, 0xF0)], 0x00, 0x00) := by decide

theorem test_getx : after .getx { Block.zero with x := 0x12, y := 0x34 } (·.output) = some (.byte 0x12) := by decide
theorem test_gety : after .gety { Block.zero with x := 0x12, y := 0x34 } (·.output) = some (.byte 0x34) := by decide

/-- The worked example of R89. -/
theorem test_peek_high_nibble :
    after .peek { Block.zero with vb0 := [(1, 0xA4)], x := 5, y := 24 } (·.output) = some (.byte 0x0A) := by decide
theorem test_peek_top_row : after .peek { Block.zero with x := 9, y := 11, lr0 := [(2, 0x50)] } (·.output) = some (.byte 0) := by
  decide

/-- V-LOC, the last nibbles of the two kinds of rows and the first bank nibble. -/
theorem test_locate :
    locate 0x00 0x18 = ⟨.vb0, 0x0000, false⟩ ∧ locate 0xFF 0xFF = ⟨.vb1, 0x39FF, true⟩ ∧
    locate 0x00 0x0C = ⟨.lr0, 0x0000, false⟩ ∧ locate 0xFF 0x17 = ⟨.lr1, 0x02FF, true⟩ := by decide

/-! ### The direct windows -/

/-- The worked example of R92. -/
theorem test_vwr_bank1 :
    after (.vwr 0x0A20 0xAB)
      ((({ Block.zero with vbank := 0x80, vb0 := [(0x0A20, 0x11)] }).setPal 0x0A ⟨1, 0, 0⟩).setPal 0x0B ⟨2, 0, 0⟩)
      (fun t => (t.blk.vb0, t.blk.vb1, t.blk.wb)) =
      some ([(0x0A20, 0x11)], [(0x0A20, 0xAB)], [(0x4082, ⟨2, 0, 0⟩), (0x4083, ⟨1, 0, 0⟩)]) := by decide

/-- P2 step 21: fan-out, `VBANK` ignored. -/
theorem test_vwr_fanout :
    after (.vwr 0x0A21 0x12)
      ((({ Block.zero with both := 0x80, vbank := 0x80 }).setPal 0x01 ⟨1, 0, 0⟩).setPal 0x02 ⟨2, 0, 0⟩)
      (fun t => (t.blk.vb0, t.blk.vb1, t.blk.wb)) =
      some ([(0x0A21, 0x12)], [(0x0A21, 0x12)],
        [(0x4084, ⟨2, 0, 0⟩), (0x4085, ⟨1, 0, 0⟩), (0x4086, ⟨2, 0, 0⟩), (0x4087, ⟨1, 0, 0⟩)]) := by decide

/-- The worked example of R96. -/
theorem test_vwr1 : after (.vwr1 0x0000 0x5A) Block.zero (·.blk) = some { Block.zero with vb1 := [(0, 0x5A)] } := by decide

/-! ### The palette (V-PAL) -/

theorem test_pal_last_slot :
    after (.pal 0x7F 0x5A) Block.zero (fun t => (t.blk.palAt 0x3F, t.blk.dirty)) = some (⟨0xB8, 0x21, 0x21⟩, true) := by decide

/-- Each colour bit alone, and one mixed datum. -/
theorem test_pal_weights :
    decodeColour 0x11 0x7F = ⟨0x97, 0x00, 0x97⟩ ∧ decodeColour 0x11 0xBF = ⟨0x47, 0x00, 0x97⟩ ∧
    decodeColour 0x11 0xDF = ⟨0x21, 0x00, 0x97⟩ ∧ decodeColour 0x11 0xEF = ⟨0x00, 0x97, 0x97⟩ ∧
    decodeColour 0x11 0xF7 = ⟨0x00, 0x47, 0x97⟩ ∧ decodeColour 0x11 0xFB = ⟨0x00, 0x21, 0x97⟩ ∧
    decodeColour 0x11 0xFD = ⟨0x00, 0x00, 0xDE⟩ ∧ decodeColour 0x11 0xFE = ⟨0x00, 0x00, 0xB8⟩ ∧
    decodeColour 0x51 0xFF = ⟨0x00, 0x00, 0x00⟩ ∧ decodeColour 0x3F 0xA5 = ⟨0x47, 0xDE, 0xDE⟩ := by decide

/-! ### The flag registers (V-FLAG) -/

theorem test_aix : after (.aix 0x7F) Block.zero (·.blk) = some { Block.zero with aix := 0x7F } := by decide
theorem test_aiy : after (.aiy 0x80) Block.zero (·.blk) = some { Block.zero with aiy := 0x80 } := by decide
theorem test_both : after (.both 0x7F) Block.zero (·.blk) = some { Block.zero with both := 0x7F } := by decide
theorem test_vbank : after (.vbank 0x80) Block.zero (·.blk) = some { Block.zero with vbank := 0x80 } := by decide
theorem test_cbank : after (.cbank 0x80) Block.zero (·.blk) = some { Block.zero with cbank := 0x80 } := by decide

/-! ### FRAME and the sprites -/

/-- From `ZeroState` a FRAME does not rebuild and changes no state of the block. -/
theorem test_frame_clean : after .frame Block.zero (·.blk) = some Block.zero := by decide

/-- V-FRM: one pass of the rebuild, `VB0[0] = 0x21`, `VB1[0] = 0x43`. -/
theorem test_rebuild_pass :
    ((((({ Block.zero with vb0 := [(0, 0x21)], vb1 := [(0, 0x43)] }).setPal 1 ⟨1, 0, 0⟩).setPal 2 ⟨2, 0, 0⟩).setPal 3
      ⟨3, 0, 0⟩).setPal 4 ⟨4, 0, 0⟩).rebuildAt [] 0 =
      [(0x1800, ⟨1, 0, 0⟩), (0x1801, ⟨2, 0, 0⟩), (0x1802, ⟨3, 0, 0⟩), (0x1803, ⟨4, 0, 0⟩)] := by decide

/-- P4's tile data (a test assumption of the spec): 2 by 2 pixels. -/
def p4Tiles : TileSet where
  lastCol := 1
  lastRow := 1
  pen := fun tile c r =>
    if tile = 1 then (if r = 0 then (if c = 0 then 1 else 2) else if c = 0 then 0 else 3)
    else if tile = 2 then 4 else 0

/-- P4's palette entries of bank 1. -/
def p4Block : Block :=
  (((Block.zero.setPal 0x11 ⟨0xFF, 0x00, 0x00⟩).setPal 0x12 ⟨0x00, 0xFF, 0x00⟩).setPal 0x13 ⟨0x00, 0x00, 0xFF⟩).setPal 0x14
    ⟨0xFF, 0xFF, 0xFF⟩

/-- P4's sprites 2 (yflip), 6 (partly above the raster) and 7 (partly right of it), each with 0 for the others. -/
theorem test_p4_sprites :
    Block.compose p4Tiles p4Block [(2, 0xD8), (6, 0xF1), (0x22, 1), (0x26, 1), (0x27, 1), (0x42, 0x40), (0x62, 0x18),
      (0x66, 0x30), (0x67, 0xFF)] =
    [(0x0031, ⟨0x00, 0x00, 0xFF⟩), (0x1819, ⟨0x00, 0x00, 0xFF⟩), (0x1918, ⟨0xFF, 0x00, 0x00⟩), (0x1919, ⟨0x00, 0xFF, 0x00⟩),
      (0xF0FF, ⟨0xFF, 0x00, 0x00⟩)] := by decide

/-- P4's sprite 4 over sprite 0: the later one shows. -/
theorem test_p4_overlap :
    Block.compose p4Tiles p4Block [(0, 0xD8), (4, 0xD8), (0x20, 1), (0x24, 2), (0x60, 0x10), (0x64, 0x11)] =
    [(0x1810, ⟨0xFF, 0x00, 0x00⟩), (0x1811, ⟨0xFF, 0xFF, 0xFF⟩), (0x1812, ⟨0xFF, 0xFF, 0xFF⟩), (0x1911, ⟨0xFF, 0xFF, 0xFF⟩),
      (0x1912, ⟨0xFF, 0xFF, 0xFF⟩)] := by decide

/-- V-SPR, the last two lines but one. -/
theorem test_sprite_decode :
    decodeSprite [(0x00, 0xFF), (0x40, 0xF0), (0x60, 0x80)] 0 = ⟨0x00, true, true, true, true, 128, -15⟩ ∧
    decodeSprite [(0x20, 0xFF), (0x40, 0x40), (0x60, 0xFF)] 0 = ⟨0xFF, false, true, false, false, 255, 240⟩ := by decide

/-! ### RESET (V-RST) -/

theorem test_reset :
    (goesTo (exec .reset { State.reset with blk := { Block.zero with x := 0x12 }, resetValue := { Block.zero with x := 0x77 } })).map
      (fun t => (t.blk.x, t.resetValue.x)) = some (0x77, 0x77) := by decide

/-! ### The pseudo-operations (R56) -/

theorem test_pseudo_operations :
    plotxyOps 0 24 3 = [.setx 0, .sety 24, .plot 3] ∧ peekxyOps 1 2 = [.setx 1, .sety 2, .peek] ∧
    autoincOps true false = [.aix 0x00, .aiy 0x80] ∧ mode0Ops = [.both 0x00, .vbank 0x00] ∧
    mode1Ops = [.both 0x00, .vbank 0x80] ∧ modebothOps = [.both 0x80] := by decide

/-! ### The display -/

/-- Only the visible rectangle of an emitted raster is shown (decision D19). -/
theorem test_displayed :
    displayed ⟨1, 2, 3, 4⟩ [] 2 4 = some black ∧ displayed ⟨1, 2, 3, 4⟩ [] 0 3 = none ∧
    displayed ⟨1, 2, 3, 4⟩ [] 1 5 = none := by decide

/-! ### Witnesses: each obligation's hypotheses are met together, clause by clause at the ends of their ranges -/

theorem witness_DecodeOfEncodeIsTheOperation :
    (Instr.vwr 0x39FF 0xFF).wellFormed = true ∧ (Instr.vwr1 0x39FF 0xFF).wellFormed = true ∧
    (Instr.pal 0x7F 0xFF).wellFormed = true ∧ Instr.frame.wellFormed = true := by decide

theorem witness_EncodeOfDecodeIsTheWord :
    (decode 0x03FFFFF#27 = .ok (.vwr 0x39FF 0xFF) ∧ kindOf 0x03FFFFF#27 = 0b00#2) ∧
    (decode 0x20002AB#27 = .ok .peek ∧ kindOf 0x20002AB#27 = 0b01#2) := by decide

theorem witness_DecodeFollowsTheMaskTable :
    decode 0x0060000#27 = .ok (.vwr 0 0) ∧
    ((Instr.row (.vwr 0 0)).selects 0x0060000#27 = true ∧ (Instr.row (.vwr 0 0)).selects 0x03FFFFF#27 = true) ∧
    ((Instr.row (.vwr1 0 0)).selects 0x1060000#27 = true ∧ (Instr.row (.vwr1 0 0)).selects 0x13FFFFF#27 = true) ∧
    (Instr.row (.pal 0 0)).selects 0x0557FFF#27 = true ∧ Instr.row .frame ∈ opTable := by decide

/-- Both ends of every undecoded range. -/
theorem witness_RejectedWordsAreTheUndecodedOnes :
    ([0x00003, 0x005FF, 0x04000, 0x054FF, 0x05582, 0x05583, 0x05585, 0x05588, 0x105FF, 0x14000, 0x1FFFF] : List BusAddr).all
      (fun a => decide (decode (packWord 0b00 a 0) = .error (.write a))) = true ∧
    ([0x00003, 0x1FFFF] : List BusAddr).all (fun a => decide (decode (packWord 0b01 a 0) = .error (.read a))) = true := by decide

theorem witness_StepPerformsThePresentedOperation :
    (presenting 0x0000012#27).pending = [⟨0x0000012#27, []⟩] ∧ decode 0x0000012#27 = .ok (.setx 0x12) := by decide

theorem witness_UndecodedAccessChangesNothing :
    (presenting 0x0000300#27).pending = [⟨0x0000300#27, []⟩] ∧ decode 0x0000300#27 = .error (.write 0x0003) := by decide

theorem witness_BlockNeverInitiatesAnOperation : State.reset.pending = [] := by decide

theorem witness_PlacedWordIsPerformedNext : (Instr.vwr1 0x39FF 0xFF).wellFormed = true := by decide

theorem witness_CbankWriteRequestsNoRebuild : State.reset.blk.dirty = false := by decide

theorem witness_GetxReturnsX : (start { Block.zero with aix := 0x7F }).blk.aix.toNat < 0x80 := by decide
theorem witness_GetyReturnsY : (start { Block.zero with aiy := 0x7F }).blk.aiy.toNat < 0x80 := by decide

theorem witness_PlotInTopRowsStoresNothing : (start { Block.zero with y := 11 }).blk.y.toNat < 12 := by decide
theorem witness_PlotInLowRowsStoresInTheLowRowArrays :
    (12 ≤ (start { Block.zero with y := 12 }).blk.y.toNat ∧ (start { Block.zero with y := 12 }).blk.y.toNat < 24) ∧
    (12 ≤ (start { Block.zero with y := 23 }).blk.y.toNat ∧ (start { Block.zero with y := 23 }).blk.y.toNat < 24) := by decide
theorem witness_PlotInBankRowsStoresInTheBank :
    24 ≤ (start { Block.zero with y := 24 }).blk.y.toNat ∧ 24 ≤ (start { Block.zero with y := 255 }).blk.y.toNat := by decide

theorem witness_PlottedPixelReadsBack :
    12 ≤ (12 : Byte).toNat ∧ 0x80 ≤ (start { Block.zero with aix := 0x80, aiy := 0x80 }).blk.aix.toNat ∧
    0x80 ≤ (start { Block.zero with aix := 0x80, aiy := 0x80 }).blk.aiy.toNat := by decide

theorem witness_NibbleWriteMerges : (⟨.vb0, 0, true⟩ : Spot) ≠ ⟨.vb0, 0, false⟩ := by decide

theorem witness_LocateAgreesWithThePacking : 24 ≤ (24 : Byte).toNat ∧ 24 ≤ (255 : Byte).toNat := by decide

/-- One state for each mode, at the last offset; also the window's other statements. -/
theorem witness_VwrWritesAndPaintsByMode :
    (0x39FF : BitVec 14).toNat < 0x3A00 ∧
    0x80 ≤ (start { Block.zero with both := 0x80 }).blk.both.toNat ∧
    (¬ 0x80 ≤ (start { Block.zero with both := 0x7F, vbank := 0x80 }).blk.both.toNat ∧
      0x80 ≤ (start { Block.zero with both := 0x7F, vbank := 0x80 }).blk.vbank.toNat) ∧
    (¬ 0x80 ≤ (start { Block.zero with both := 0x7F, vbank := 0x7F }).blk.both.toNat ∧
      ¬ 0x80 ≤ (start { Block.zero with both := 0x7F, vbank := 0x7F }).blk.vbank.toNat) := by decide

theorem witness_FanOutAndSingleBankIsolation :
    (0x0000 : BitVec 14).toNat < 0x3A00 ∧ 0x80 ≤ (start { Block.zero with both := 0xFF }).blk.both.toNat ∧
    ((start { Block.zero with vbank := 0xFF }).blk.both.toNat < 0x80 ∧
      0x80 ≤ (start { Block.zero with vbank := 0xFF }).blk.vbank.toNat) ∧
    (State.reset.blk.both.toNat < 0x80 ∧ State.reset.blk.vbank.toNat < 0x80) := by decide

theorem witness_Vwr1StoresWithoutPainting : (0x39FF : BitVec 14).toNat < 0x3A00 := by decide

theorem witness_OffsetsOutsideTheWindowChangeNothing :
    0x3A00 ≤ (0x3A00 : BitVec 14).toNat ∧ 0x3A00 ≤ (0x3FFF : BitVec 14).toNat := by decide

theorem witness_WindowAndIndexedPortAgree :
    ((0x39FF : BitVec 14).toNat < 0x3A00 ∧ 3 < 4) ∧
    (0x80 ≤ (start { Block.zero with both := 0x80 }).blk.both.toNat) ∧
    (0x80 ≤ (start { Block.zero with vbank := 0x80 }).blk.vbank.toNat ↔ 2 ≤ 2) ∧
    (0x80 ≤ State.reset.blk.vbank.toNat ↔ 2 ≤ 1) := by decide

theorem witness_FrameRebuildsRows24To255 :
    State.reset.blk.dirty = false ∧ (start { Block.zero with dirty := true }).blk.dirty = true ∧
    (255 < 256 ∧ 23 < 256 ∧ ¬ 24 ≤ 23) ∧ (255 < 256 ∧ 24 < 256 ∧ 24 ≤ 24) := by decide

theorem witness_FrameShowsTheTopmostSprite : 0 < 256 ∧ 255 < 256 := by decide

/-- Two tables that differ in a blank bit and in an offset no descriptor has. -/
theorem witness_FrameReadsOnlyTheDescriptors :
    ∀ i : Fin 20, Memory.read [(0x14, 0xFF), (0x53, 0x30)] i = Memory.read State.reset.spr i ∧
      Memory.read [(0x14, 0xFF), (0x53, 0x30)] (0x20 + i) = Memory.read State.reset.spr (0x20 + i) ∧
      Memory.read [(0x14, 0xFF), (0x53, 0x30)] (0x60 + i) = Memory.read State.reset.spr (0x60 + i) ∧
      (Memory.read [(0x14, 0xFF), (0x53, 0x30)] (0x40 + i)).toNat / 64 = (Memory.read State.reset.spr (0x40 + i)).toNat / 64 := by
  decide

theorem witness_SpriteDescriptorDecode : 19 < 20 ∧ 0 < 20 := by decide
theorem witness_DrawTileClosedForm : 255 < 256 ∧ 0 < 256 := by decide

/-- The block `ZeroState` has is well formed. -/
theorem witness_ResetStateIsWellFormed : Block.zero.wf := by decide

theorem witness_ResetValueNeverChanges :
    step (presenting 0x6000000#27) = .next { State.reset with spr := [] } := rfl

/-- A well-formed state with an operation presented, and the step it takes. -/
theorem witness_StepKeepsCanonicalForm :
    (presenting 0x0000012#27).wf ∧
    step (presenting 0x0000012#27) = .next { State.reset with blk := { Block.zero with x := 0x12 } } := by
  refine ⟨⟨by decide, by decide, by decide, ?_, trivial⟩, rfl⟩
  intro q hq
  simp only [presenting, State.present, State.reset, State.afterReset, List.mem_singleton] at hq
  subst hq
  decide

/-- For each item an operation of each kind the table names that does change it. -/
theorem witness_OnlyTheNamedWritersChangeAnItem :
    after (.setx 1) Block.zero (·.blk.x) = some 1 ∧ after (.plot 1) Block.zero (·.blk.x) = some 1 ∧
    after (.sety 1) Block.zero (·.blk.y) = some 1 ∧ after (.plot 1) Block.zero (·.blk.y) = some 1 ∧
    after (.plot 1) Block.zero (·.blk.p) = some 1 ∧ after (.aix 1) Block.zero (·.blk.aix) = some 1 ∧
    after (.aiy 1) Block.zero (·.blk.aiy) = some 1 ∧ after (.both 1) Block.zero (·.blk.both) = some 1 ∧
    after (.vbank 1) Block.zero (·.blk.vbank) = some 1 ∧ after (.cbank 1) Block.zero (·.blk.cbank) = some 1 ∧
    after (.pal 0 0) Block.zero (·.blk.palAt 0) = some ⟨0xFF, 0xFF, 0xFF⟩ ∧
    after (.pal 0 0) Block.zero (·.blk.dirty) = some true ∧
    after .frame { Block.zero with dirty := true } (·.blk.dirty) = some false ∧
    after (.plot 1) { Block.zero with y := 24 } (·.blk.vb0) = some [(0, 1)] ∧
    after (.plot 1) { Block.zero with x := 2, y := 24 } (·.blk.vb1) = some [(0, 1)] ∧
    after (.vwr 0 1) Block.zero (·.blk.vb0) = some [(0, 1)] ∧ after (.vwr1 0 1) Block.zero (·.blk.vb1) = some [(0, 1)] ∧
    after (.plot 1) { Block.zero with y := 12 } (·.blk.lr0) = some [(0, 1)] ∧
    after (.plot 1) { Block.zero with x := 2, y := 12 } (·.blk.lr1) = some [(0, 1)] ∧
    after (.plot 1) (Block.zero.setPal 1 ⟨1, 1, 1⟩) (·.blk.wb) = some [(0, ⟨1, 1, 1⟩)] ∧ Instr.plot 1 ≠ .reset := by decide

/-- A read, a write and a PLOT, each in the well-formed reset state. -/
theorem witness_ReadsAreFreeAndWritesIdempotent :
    exec .getx State.reset = .next { State.reset with output := .byte 0 } ∧
    exec (.aix 0x80) State.reset = .next { State.reset with blk := { Block.zero with aix := 0x80 } } ∧ State.reset.wf ∧
    (goesTo (exec (.plot 1) State.reset)).isSome = true ∧ State.reset.blk.aix.toNat < 0x80 ∧ State.reset.blk.aiy.toNat < 0x80 := by
  exact ⟨rfl, rfl, ⟨by decide, by decide, by decide, (fun _ h => nomatch h), trivial⟩, by decide, by decide, by decide⟩

/-- Two states that differ in `P` and in the low bits of all five flags, and a step of the first. -/
theorem witness_PixelRegisterAndLowFlagBitsAreUnobservable :
    statesAlike State.reset
      (start { Block.zero with p := 0xFF, aix := 0x7F, aiy := 0x7F, both := 0x7F, vbank := 0x7F, cbank := 0x7F }) ∧
    step State.reset = .next State.reset := by
  refine ⟨⟨⟨rfl, rfl, rfl, rfl, ⟨rfl, rfl, rfl, rfl⟩, rfl, ?_⟩, ⟨rfl, rfl, rfl⟩, rfl⟩, rfl⟩
  decide

end Sys2Proof.Tests
end

section
/-! SUPPORT. Family 10_state: the canonical form through every operation and every step (10_state.md R26). -/

namespace Sys2Proof.Machine

/-! ### The canonical form of the state (R26): each port keeps it, so each operation and each step does -/

theorem State.wf_act {s : State} (h : s.wf) {f : Block → Block} (hf : (f s.blk).wf) : (s.act f).wf := by
  obtain ⟨-, hrv, hspr, hpending, -⟩ := h
  exact ⟨hf, hrv, hspr, hpending, trivial⟩

theorem State.wf_reply {s : State} (h : s.wf) (v : Byte) : (s.reply v).wf := by
  obtain ⟨hblk, hrv, hspr, hpending, -⟩ := h
  exact ⟨hblk, hrv, hspr, hpending, trivial⟩

theorem State.wf_emit {s : State} (h : s.wf) {b : Block} (hb : b.wf) {out : Raster} (hout : Raster.wf out) :
    (s.emit b out).wf := by
  obtain ⟨-, hrv, hspr, hpending, -⟩ := h
  exact ⟨hb, hrv, hspr, hpending, hout⟩

theorem State.wf_notAddressed {s : State} (h : s.wf) : s.notAddressed.wf := by
  obtain ⟨hblk, hrv, hspr, hpending, -⟩ := h
  exact ⟨hblk, hrv, hspr, hpending, trivial⟩

/-- Taking the next operation off the environment's list keeps the state well formed. -/
theorem State.wf_take {s : State} (h : s.wf) {q : Presented} {rest : List Presented} (hp : s.pending = q :: rest) :
    ({ s with pending := rest, spr := q.spr } : State).wf := by
  obtain ⟨hblk, hrv, -, hpending, hout⟩ := h
  rw [hp, List.forall_mem_cons] at hpending
  exact ⟨hblk, hrv, hpending.1, hpending.2, hout⟩

theorem State.wf_frameWith {s : State} (h : s.wf) (t : TileSet) : (s.frameWith t).wf := by
  have hb : s.blk.refresh.wf := Block.wf_refresh h.1
  have hwb : Raster.wf s.blk.refresh.wb := hb.2.2.2.2
  exact State.wf_emit h hb (drawSprites_wf t _ s.spr hwb)

/-- Every operation, well formed or not, keeps a state well formed. -/
theorem exec_keeps_wf {i : Instr} {s t : State} (h : s.wf) (hexec : exec i s = .next t) : t.wf := by
  have hb : s.blk.wf := h.1
  cases i with
  | setx d | sety d | aix d | aiy d | both d | vbank d | cbank d | pal o d =>
    cases hexec
    exact State.wf_act h hb
  | getx | gety | peek =>
    cases hexec
    exact State.wf_reply h _
  | plot d =>
    cases hexec
    exact State.wf_act h (Block.wf_plot hb d)
  | vwr r d =>
    cases hexec
    refine State.wf_act h ?_
    split
    · rename_i hr
      exact Block.wf_writeDirect hb hr d
    · exact hb
  | vwr1 r d =>
    cases hexec
    refine State.wf_act h ?_
    split
    · rename_i hr
      exact Block.wf_memWrite hb .vb1 hr d
    · exact hb
  | frame =>
    cases hexec
    exact State.wf_frameWith h Config.tiles
  | reset =>
    cases hexec
    exact State.wf_act h h.2.1

/-- Settles O45, with `step_cases`: a step is idle, an undecoded access or an operation, and each keeps the form. -/
theorem stepKeepsCanonicalForm : Obligations.StepKeepsCanonicalForm := by
  intro s t h hstep
  rcases step_cases hstep with ⟨-, rfl⟩ | ⟨q, rest, e, hp, -, rfl⟩ | ⟨q, rest, i, hp, -, hexec⟩
  · exact h
  · exact State.wf_notAddressed (State.wf_take h hp)
  · exact exec_keeps_wf (State.wf_take h hp) hexec

end Sys2Proof.Machine
end

section
/-! SUPPORT. Family 10_state: what of the block can be observed (10_state.md R13, R14), and that no operation lets more out. -/

namespace Sys2Proof.Machine

open Sys2Proof.Claims

/-! ### The observable part -/

/-- A flag byte without its bits 6 to 0 (R14). -/
def flagPart (v : Byte) : Byte := if topBit v then 0x80 else 0x00

@[simp] theorem topBit_flagPart (v : Byte) : topBit (flagPart v) = topBit v := by
  cases h : topBit v <;> simp [flagPart, h] <;> decide

theorem flagPart_eq_iff (v w : Byte) : flagPart v = flagPart w ↔ (0x80 ≤ v.toNat ↔ 0x80 ≤ w.toNat) := by
  rw [← topBit_iff, ← topBit_iff]
  cases hv : topBit v <;> cases hw : topBit w <;> simp [flagPart, hv, hw]

@[simp] theorem flagPart_flagPart (v : Byte) : flagPart (flagPart v) = flagPart v :=
  (flagPart_eq_iff _ _).mpr (by rw [← topBit_iff, ← topBit_iff, topBit_flagPart])

/-- The block with what cannot be observed cleared: `P` (R13) and bits 6 to 0 of the flag registers (R14). -/
def Block.observable (b : Block) : Block :=
  { b with
    p := 0
    aix := flagPart b.aix
    aiy := flagPart b.aiy
    both := flagPart b.both
    vbank := flagPart b.vbank
    cbank := flagPart b.cbank }

@[simp] theorem Block.observable_x (b : Block) : b.observable.x = b.x := rfl
@[simp] theorem Block.observable_y (b : Block) : b.observable.y = b.y := rfl
@[simp] theorem Block.observable_aix (b : Block) : b.observable.aix = flagPart b.aix := rfl
@[simp] theorem Block.observable_aiy (b : Block) : b.observable.aiy = flagPart b.aiy := rfl
@[simp] theorem Block.observable_both (b : Block) : b.observable.both = flagPart b.both := rfl
@[simp] theorem Block.observable_vbank (b : Block) : b.observable.vbank = flagPart b.vbank := rfl
@[simp] theorem Block.observable_cbank (b : Block) : b.observable.cbank = flagPart b.cbank := rfl
@[simp] theorem Block.observable_dirty (b : Block) : b.observable.dirty = b.dirty := rfl
@[simp] theorem Block.observable_wb (b : Block) : b.observable.wb = b.wb := rfl
@[simp] theorem Block.observable_palAt (b : Block) : b.observable.palAt = b.palAt := rfl
@[simp] theorem Block.observable_memRead (b : Block) (S : StoreName) : b.observable.memRead S = b.memRead S := by
  cases S <;> rfl

@[simp] theorem Block.observable_observable (b : Block) : b.observable.observable = b.observable := by
  simp [Block.observable]

/-- The relation of the claim is equality of the observable parts. -/
theorem alike_iff (b c : Block) : alike b c ↔ b.observable = c.observable := by
  simp only [alike, storesKept, Block.observable, Block.mk.injEq, flagPart_eq_iff, true_and]
  constructor
  · rintro ⟨hx, hy, hpal, hdirty, ⟨h0, h1, h2, h3⟩, hwb, haix, haiy, hboth, hvbank, hcbank⟩
    exact ⟨hx, hy, haix, haiy, hboth, hvbank, hcbank, hpal, hdirty, h0.symm, h1.symm, h2.symm, h3.symm, hwb⟩
  · rintro ⟨hx, hy, haix, haiy, hboth, hvbank, hcbank, hpal, hdirty, h0, h1, h2, h3, hwb⟩
    exact ⟨hx, hy, hpal, hdirty, ⟨h0.symm, h1.symm, h2.symm, h3.symm⟩, hwb, haix, haiy, hboth, hvbank, hcbank⟩

/-! ### What is computed from the flags and the palette sees the observable part only -/

@[simp] theorem autoIncrement_flagPart (v : Byte) : autoIncrement (flagPart v) = autoIncrement v := by
  simp [autoIncrement]

@[simp] theorem writeMode_flagPart (v w : Byte) : writeMode (flagPart v) (flagPart w) = writeMode v w := by
  simp [writeMode]

@[simp] theorem bitmapIndex_flagPart (v : Byte) (n : Nibble) : bitmapIndex (flagPart v) n = bitmapIndex v n := by
  simp [bitmapIndex]

@[simp] theorem spriteBank_flagPart (v : Byte) : spriteBank (flagPart v) = spriteBank v := by
  simp [spriteBank]

@[simp] theorem Block.observable_paintOn (b : Block) (w : Raster) (x y : Nat) (v : Nibble) :
    b.observable.paintOn w x y v = b.paintOn w x y v := by
  simp [Block.paintOn]

@[simp] theorem Block.observable_placeBank0 (b : Block) (w : Raster) (r : Nat) (d : Byte) :
    b.observable.placeBank0 w r d = b.placeBank0 w r d := by
  simp [Block.placeBank0]

@[simp] theorem Block.observable_placeBank1 (b : Block) (w : Raster) (r : Nat) (d : Byte) :
    b.observable.placeBank1 w r d = b.placeBank1 w r d := by
  simp [Block.placeBank1]

@[simp] theorem Block.observable_rebuiltWb (b : Block) : b.observable.rebuiltWb = b.rebuiltWb := by
  have pass : b.observable.rebuildAt = b.rebuildAt := by
    funext w r
    simp [Block.rebuildAt]
  unfold Block.rebuiltWb
  rw [pass, Block.observable_wb]

@[simp] theorem Block.observable_peekValue (b : Block) : b.observable.peekValue = b.peekValue := by
  simp [Block.peekValue, Block.nibRead]

@[simp] theorem Block.observable_compose (t : TileSet) (b : Block) (spr : Memory) :
    Block.compose t b.observable spr = Block.compose t b spr := by
  have sprite : drawSprite t b.observable spr = drawSprite t b spr := by
    funext out i
    simp [drawSprite]
  simp [Block.compose, drawSprites, sprite]

/-! ### Every update of the block: its observable part is decided by the observable part before it -/

@[simp] theorem Block.setX_observable (b : Block) (v : Byte) : (b.setX v).observable = b.observable.setX v := rfl
@[simp] theorem Block.setY_observable (b : Block) (v : Byte) : (b.setY v).observable = b.observable.setY v := rfl
@[simp] theorem Block.setP_observable (b : Block) (v : Byte) : (b.setP v).observable = b.observable := rfl
@[simp] theorem Block.setAix_observable (b : Block) (v : Byte) :
    (b.setAix v).observable = b.observable.setAix (flagPart v) := rfl
@[simp] theorem Block.setAiy_observable (b : Block) (v : Byte) :
    (b.setAiy v).observable = b.observable.setAiy (flagPart v) := rfl
@[simp] theorem Block.setBoth_observable (b : Block) (v : Byte) :
    (b.setBoth v).observable = b.observable.setBoth (flagPart v) := rfl
@[simp] theorem Block.setVbank_observable (b : Block) (v : Byte) :
    (b.setVbank v).observable = b.observable.setVbank (flagPart v) := rfl
@[simp] theorem Block.setCbank_observable (b : Block) (v : Byte) :
    (b.setCbank v).observable = b.observable.setCbank (flagPart v) := rfl
@[simp] theorem Block.setWb_observable (b : Block) (w : Raster) : (b.setWb w).observable = b.observable.setWb w := rfl
@[simp] theorem Block.setDirty_observable (b : Block) (v : Bool) :
    (b.setDirty v).observable = b.observable.setDirty v := rfl
@[simp] theorem Block.writePalette_observable (b : Block) (o : BitVec 7) (d : Byte) :
    (b.writePalette o d).observable = b.observable.writePalette o d := rfl

@[simp] theorem Block.memWrite_observable (b : Block) (S : StoreName) (a : Nat) (v : Byte) :
    (b.memWrite S a v).observable = b.observable.memWrite S a v := by
  cases S <;> rfl

@[simp] theorem Block.storePixel_observable (b : Block) (v : Nibble) :
    (b.storePixel v).observable = b.observable.storePixel v := by
  by_cases h : Param.topRows ≤ b.y.toNat <;> simp [Block.storePixel, Block.nibWrite, h]

@[simp] theorem Block.advance_observable (b : Block) : b.advance.observable = b.observable.advance := by
  rw [Block.advance_eq, Block.advance_eq]
  simp [Block.observable]

@[simp] theorem Block.paint_observable (b : Block) (x y : Nat) (v : Nibble) :
    (b.paint x y v).observable = b.observable.paint x y v := by
  simp [Block.paint]

/-- `P` is written by every PLOT, so here the observable part is taken after both (R13). -/
theorem Block.plot_observable (b : Block) (d : Byte) : (b.observable.plot d).observable = (b.plot d).observable := by
  simp [Block.plot, Block.storePixel_frame]

@[simp] theorem Block.writeDirect_observable (b : Block) (r : Nat) (d : Byte) :
    (b.writeDirect r d).observable = b.observable.writeDirect r d := by
  cases h : writeMode b.both b.vbank <;> simp [Block.writeDirect, h]

@[simp] theorem Block.rebuild_observable (b : Block) : b.rebuild.observable = b.observable.rebuild := by
  rw [Block.rebuild, Block.rebuild, Block.setWb_observable, Block.observable_rebuiltWb]

@[simp] theorem Block.refresh_observable (b : Block) : b.refresh.observable = b.observable.refresh := by
  unfold Block.refresh
  rw [Block.observable_dirty]
  split
  · rw [Block.setDirty_observable, Block.rebuild_observable]
  · rfl

/-! ### Operations and steps -/

/-- The state with the observable part of its block. -/
def State.observable (s : State) : State := { s with blk := s.blk.observable }

/-- The relation of the claim is equality of the observable parts. -/
theorem statesAlike_iff (s t : State) : statesAlike s t ↔ s.observable = t.observable := by
  simp only [statesAlike, portsKept, alike_iff, State.observable, State.mk.injEq]
  constructor
  · rintro ⟨hblk, ⟨hrv, hspr, hpending⟩, hout⟩
    exact ⟨hblk, hrv.symm, hspr.symm, hpending.symm, hout.symm⟩
  · rintro ⟨hblk, hrv, hspr, hpending, hout⟩
    exact ⟨hblk, ⟨hrv.symm, hspr.symm, hpending.symm⟩, hout.symm⟩

/-- The observable part of an outcome. -/
def observableOutcome : Host.Outcome State Fault Refusal → Host.Outcome State Fault Refusal
  | .next s => .next s.observable
  | .fault r => .fault r
  | .refused r => .refused r

theorem observableOutcome_eq_next {o : Host.Outcome State Fault Refusal} {s : State}
    (h : observableOutcome o = .next s) : ∃ t, o = .next t ∧ t.observable = s := by
  cases o with
  | next t => exact ⟨t, rfl, by simpa [observableOutcome] using h⟩
  | fault r => cases h
  | refused r => cases h

/-- An operation on the block whose observable effect is decided by the observable part. -/
theorem State.act_observable {f : Block → Block} (hf : ∀ b, (f b.observable).observable = (f b).observable) (s : State) :
    (s.observable.act f).observable = (s.act f).observable := by
  simp [State.observable, State.act, hf]

theorem State.reply_observable (s : State) (v : Byte) : (s.observable.reply v).observable = (s.reply v).observable := by
  simp [State.observable, State.reply]

theorem State.frameWith_observable (t : TileSet) (s : State) :
    (s.observable.frameWith t).observable = (s.frameWith t).observable := by
  simp only [State.frameWith, State.observable, State.emit, ← Block.refresh_observable, Block.observable_compose,
    Block.observable_observable]

/-- What an operation does and gives to the outside, seen on the observable part, is decided by the observable part. -/
theorem exec_observable (i : Instr) (s : State) :
    observableOutcome (exec i s.observable) = observableOutcome (exec i s) := by
  cases i with
  | setx d | sety d | aix d | aiy d | both d | vbank d | cbank d | pal o d =>
    exact congrArg Host.Outcome.next (State.act_observable (fun b => by simp) s)
  | plot d => exact congrArg Host.Outcome.next (State.act_observable (Block.plot_observable · d) s)
  | vwr r d | vwr1 r d =>
    refine congrArg Host.Outcome.next (State.act_observable (fun b => ?_) s)
    split <;> simp
  | getx | gety => exact congrArg Host.Outcome.next (State.reply_observable s _)
  | peek =>
    rw [exec_peek, exec_peek, State.observable, Block.observable_peekValue]
    exact congrArg Host.Outcome.next (State.reply_observable s _)
  | frame => exact congrArg Host.Outcome.next (State.frameWith_observable Config.tiles s)
  | reset => rfl

/-- A step likewise. -/
theorem step_observable (s : State) : observableOutcome (step s.observable) = observableOutcome (step s) := by
  cases hp : s.pending with
  | nil =>
    rw [step, step, fetch_nil hp, fetch_nil (s := s.observable) hp]
    simp [observableOutcome, State.observable]
  | cons q rest =>
    rw [step, step, fetch_cons hp, fetch_cons (s := s.observable) hp]
    cases hd : decode q.word with
    | error e => simp [hd, observableOutcome, State.observable, State.notAddressed]
    | ok i =>
      simp only [hd]
      exact exec_observable i { s with pending := rest, spr := q.spr }

/-- Settles O48: alike states have the same observable part, and a step's observable outcome is decided by it. -/
theorem pixelRegisterAndLowFlagBitsAreUnobservable : Obligations.PixelRegisterAndLowFlagBitsAreUnobservable := by
  intro s s' t hs hstep
  have same : observableOutcome (step s') = .next t.observable := by
    rw [← step_observable, ← (statesAlike_iff s s').mp hs, step_observable, hstep, observableOutcome]
  obtain ⟨t', hstep', ht⟩ := observableOutcome_eq_next same
  exact ⟨t', hstep', (statesAlike_iff t t').mpr ht.symm⟩

end Sys2Proof.Machine
end

section
/-! SUPPORT. Family 10_state: who writes which item (the "Written by" column of 10_state.md), and the component values of R20. -/

namespace Sys2Proof.Machine

/-! ### What each operation of more than one item leaves alone -/

/-- A PLOT writes the coordinates, `P`, the four arrays and `WB` at most (R86). -/
theorem Block.plot_frame (b : Block) (d : Byte) :
    (b.plot d).aix = b.aix ∧ (b.plot d).aiy = b.aiy ∧ (b.plot d).both = b.both ∧ (b.plot d).vbank = b.vbank ∧
    (b.plot d).cbank = b.cbank ∧ (b.plot d).pal = b.pal ∧ (b.plot d).dirty = b.dirty := by
  simp [Block.plot_eq, Block.storePixel_frame]

/-- A direct window write writes the two banks and `WB` at most (R92). -/
theorem Block.writeDirect_frame (b : Block) (r : Nat) (d : Byte) :
    (b.writeDirect r d).x = b.x ∧ (b.writeDirect r d).y = b.y ∧ (b.writeDirect r d).p = b.p ∧
    (b.writeDirect r d).aix = b.aix ∧ (b.writeDirect r d).aiy = b.aiy ∧ (b.writeDirect r d).both = b.both ∧
    (b.writeDirect r d).vbank = b.vbank ∧ (b.writeDirect r d).cbank = b.cbank ∧ (b.writeDirect r d).pal = b.pal ∧
    (b.writeDirect r d).dirty = b.dirty ∧ (b.writeDirect r d).lr0 = b.lr0 ∧ (b.writeDirect r d).lr1 = b.lr1 := by
  rw [Block.writeDirect_eq]
  cases writeMode b.both b.vbank <;> simp

/-- A bank-1 window write is a write of `VB1` (R96, decision D9). -/
theorem Block.memWrite_vb1 (b : Block) (r : Nat) (d : Byte) :
    b.memWrite .vb1 r d = b.setVb1 (Memory.write b.vb1 r d) := rfl

/-- A palette write writes `PAL` and sets `dirty` (R72, R74). -/
theorem Block.writePalette_eq (b : Block) (o : BitVec 7) (d : Byte) :
    b.writePalette o d = (b.setPal (paletteSlot o) (decodeColour o d)).setDirty true := rfl

/-- Settles O46: an operation other than RESET leaves alone what its frame lemma says, and is a named writer of the rest. -/
theorem onlyTheNamedWritersChangeAnItem : Obligations.OnlyTheNamedWritersChangeAnItem := by
  intro i s t hexec hreset
  cases i with
  | setx d | sety d | aix d | aiy d | both d | vbank d | cbank d | getx | gety | peek =>
    cases hexec
    simp
  | plot d =>
    cases hexec
    simp [Block.plot_frame]
  | vwr r d =>
    cases hexec
    by_cases hr : r.toNat < Param.bankSize <;> simp [hr, Block.writeDirect_frame]
  | vwr1 r d =>
    cases hexec
    by_cases hr : r.toNat < Param.bankSize <;> simp [hr, Block.memWrite_vb1]
  | pal o d =>
    cases hexec
    simp [Block.writePalette_eq]
  | frame =>
    cases hexec
    simp [Block.refresh_eq]
  | reset => exact absurd rfl hreset

/-! ### The component values -/

/-- The eight sums of the weights 0x21, 0x47 and 0x97 (R73). -/
theorem weigh_mem (b0 b1 b2 : Bool) :
    weigh b0 b1 b2 ∈ [0x00#8, 0x21#8, 0x47#8, 0x68#8, 0x97#8, 0xB8#8, 0xDE#8, 0xFF#8] := by
  cases b0 <;> cases b1 <;> cases b2 <;> decide

/-- Settles O17: the component values are those of `weigh`, the corner data of R75 are evaluated. -/
theorem paletteComponentsAreTheEightValues : Obligations.PaletteComponentsAreTheEightValues :=
  ⟨weigh_mem, by decide⟩

end Sys2Proof.Machine
end

section
/-! SUPPORT. Family 20_memory: what one step performs (20_memory.md R41), and operations performed twice in a row (R38). -/

namespace Sys2Proof.Machine

/-! ### Steps (R41) -/

/-- Settles O6: `fetch` takes the presented operation, and `step` executes what its word decodes to. -/
theorem stepPerformsThePresentedOperation : Obligations.StepPerformsThePresentedOperation := by
  intro s q rest i hpending hdecode
  rw [step, fetch_cons hpending]
  simp only [hdecode]

/-- Settles O8: with nothing presented `fetch` finds no operation. -/
theorem blockNeverInitiatesAnOperation : Obligations.BlockNeverInitiatesAnOperation := by
  intro s hpending
  rw [step, fetch_nil hpending]

/-! ### Placing the same byte twice at a window offset (R91) -/

section Placements

variable (b : Block) {w : Raster} (hw : Raster.wf w) {r : Nat} (hr : r < Param.bankSize) (d : Byte)
include hw hr

theorem Block.placeBank0_placeBank0 : b.placeBank0 (b.placeBank0 w r d) r d = b.placeBank0 w r d := by
  have hplaced : Raster.wf (b.placeBank0 w r d) := Block.placeBank0_wf b hw hr d
  refine Raster.eq_of_read_eq (Block.placeBank0_wf b hplaced hr d) hplaced fun x y hx _ => ?_
  simp only [Block.read_placeBank0 b _ hr d y hx]
  split
  · rfl
  · split <;> rfl

theorem Block.placeBank1_placeBank1 : b.placeBank1 (b.placeBank1 w r d) r d = b.placeBank1 w r d := by
  have hplaced : Raster.wf (b.placeBank1 w r d) := Block.placeBank1_wf b hw hr d
  refine Raster.eq_of_read_eq (Block.placeBank1_wf b hplaced hr d) hplaced fun x y hx _ => ?_
  simp only [Block.read_placeBank1 b _ hr d y hx]
  split
  · rfl
  · split <;> rfl

/-- The two placements at one offset paint different columns, so their order does not matter. -/
theorem Block.placeBank0_placeBank1_comm :
    b.placeBank0 (b.placeBank1 w r d) r d = b.placeBank1 (b.placeBank0 w r d) r d := by
  refine Raster.eq_of_read_eq (Block.placeBank0_wf b (Block.placeBank1_wf b hw hr d) hr d)
    (Block.placeBank1_wf b (Block.placeBank0_wf b hw hr d) hr d) fun x y hx _ => ?_
  simp only [Block.read_placeBank0 b _ hr d y hx, Block.read_placeBank1 b _ hr d y hx]
  by_cases hcol : windowCol r + 2 ≤ x
  · have hleft : x ≠ windowCol r ∧ x ≠ windowCol r + 1 := by omega
    simp [hleft]
  · have hright : x ≠ windowCol r + 2 ∧ x ≠ windowCol r + 3 := by omega
    simp [hright]

/-- The fan-out placement, bank 0 and then bank 1, done twice. -/
theorem Block.placeBoth_placeBoth :
    b.placeBank1 (b.placeBank0 (b.placeBank1 (b.placeBank0 w r d) r d) r d) r d =
      b.placeBank1 (b.placeBank0 w r d) r d := by
  have hplaced : Raster.wf (b.placeBank0 w r d) := Block.placeBank0_wf b hw hr d
  rw [Block.placeBank0_placeBank1_comm b hplaced hr, Block.placeBank0_placeBank0 b hw hr,
    Block.placeBank1_placeBank1 b hplaced hr]

end Placements

/-! ### Block updates done twice -/

/-- A placement uses the palette and `CBANK` only, which a direct window write keeps. -/
theorem Block.paintOn_writeDirect (b : Block) (r : Nat) (d : Byte) : (b.writeDirect r d).paintOn = b.paintOn := by
  rw [Block.writeDirect_eq]
  cases writeMode b.both b.vbank <;> rfl

theorem Block.writeDirect_writeDirect {b : Block} (h : b.wf) {r : Nat} (hr : r < Param.bankSize) (d : Byte) :
    (b.writeDirect r d).writeDirect r d = b.writeDirect r d := by
  obtain ⟨-, -, -, -, hwb⟩ := h
  have hplace0 : (b.writeDirect r d).placeBank0 = b.placeBank0 := by
    unfold Block.placeBank0
    rw [Block.paintOn_writeDirect]
  have hplace1 : (b.writeDirect r d).placeBank1 = b.placeBank1 := by
    unfold Block.placeBank1
    rw [Block.paintOn_writeDirect]
  rw [Block.writeDirect_eq (b.writeDirect r d), hplace0, hplace1, Block.writeDirect_eq b]
  cases hmode : writeMode b.both b.vbank with
  | fanOut => simp [hmode, Memory.write_write, Block.placeBoth_placeBoth b hwb hr]
  | bank1 => simp [hmode, Memory.write_write, Block.placeBank1_placeBank1 b hwb hr]
  | bank0 => simp [hmode, Memory.write_write, Block.placeBank0_placeBank0 b hwb hr]

theorem Block.memWrite_vb1_memWrite_vb1 (b : Block) (r : Nat) (d : Byte) :
    (b.memWrite .vb1 r d).memWrite .vb1 r d = b.memWrite .vb1 r d := by
  simp [Block.memWrite_vb1, Memory.write_write, Block.setVb1]

theorem Block.writePalette_writePalette (b : Block) (o : BitVec 7) (d : Byte) :
    (b.writePalette o d).writePalette o d = b.writePalette o d := by
  simp [Block.writePalette_eq, Block.setPal, Block.setDirty]

/-! ### Operations done twice (R38) -/

/-- An operation that acts on the block by an update that changes nothing the second time leaves, done twice, what it
leaves once. -/
theorem exec_twice_of_act {i : Instr} {f : Block → Block} {s t : State} (hact : ∀ s, exec i s = .next (s.act f))
    (hf : f (f s.blk) = f s.blk) (hexec : exec i s = .next t) : exec i t = .next t := by
  rw [hact] at hexec
  cases hexec
  rw [hact]
  simp [State.act, hf]

/-- The same for a window write, of either window: an offset outside the window writes nothing. -/
theorem exec_twice_of_window {i : Instr} {g : Block → Block} {r : Nat} {s t : State}
    (hact : ∀ s, exec i s = .next (s.act fun b => if r < Param.bankSize then g b else b))
    (hg : r < Param.bankSize → g (g s.blk) = g s.blk) (hexec : exec i s = .next t) : exec i t = .next t := by
  refine exec_twice_of_act hact ?_ hexec
  by_cases hr : r < Param.bankSize
  · simp only [if_pos hr, hg hr]
  · simp only [if_neg hr]

/-- R15, R16: an increment is enabled by every register value below 0x80. -/
theorem autoIncrement_of_lt {v : Byte} (h : v.toNat < 0x80) : autoIncrement v = true := by
  have htop : topBit v ≠ true := fun hset => absurd ((topBit_iff v).mp hset) (by omega)
  simpa [autoIncrement] using htop

/-- Settles O47: a read only replies, each other write acts by an update that is idempotent, and an increment modulo 256 is no
fixed point. -/
theorem readsAreFreeAndWritesIdempotent : Obligations.ReadsAreFreeAndWritesIdempotent := by
  refine ⟨?reads, ?writes, ?plot⟩
  case reads =>
    rintro i s t (rfl | rfl | rfl) hexec <;> cases hexec <;> rfl
  case writes =>
    rintro i s t hwf hexec
      (⟨d, rfl | rfl | rfl | rfl | rfl | rfl | rfl⟩ | ⟨r, d, rfl | rfl⟩ | ⟨o, d, rfl⟩)
    · exact exec_twice_of_act (exec_setx d) rfl hexec
    · exact exec_twice_of_act (exec_sety d) rfl hexec
    · exact exec_twice_of_act (exec_aix d) rfl hexec
    · exact exec_twice_of_act (exec_aiy d) rfl hexec
    · exact exec_twice_of_act (exec_both d) rfl hexec
    · exact exec_twice_of_act (exec_vbank d) rfl hexec
    · exact exec_twice_of_act (exec_cbank d) rfl hexec
    · exact exec_twice_of_window (exec_vwr r d) (fun hr => Block.writeDirect_writeDirect hwf.1 hr d) hexec
    · exact exec_twice_of_window (exec_vwr1 r d) (fun _ => Block.memWrite_vb1_memWrite_vb1 s.blk r.toNat d) hexec
    · exact exec_twice_of_act (exec_pal o d) (Block.writePalette_writePalette s.blk o d) hexec
  case plot =>
    intro d s t hexec
    cases hexec
    rw [State.act_blk, Block.plot_eq]
    exact ⟨fun haix => by simp [autoIncrement_of_lt haix], fun haiy => by simp [autoIncrement_of_lt haiy]⟩

end Sys2Proof.Machine
end

section
/-! SUPPORT. Family 30_encoding: the word against its format (30_encoding.md R45, R46), the selection of an operation against
its generic spelling (R51, R55), and the undecoded addresses (R52, R53). -/

namespace Sys2Proof

/-! ### The word and its format (R45, R46) -/

theorem unpack_eq_wr_iff {T : Word} {a : BusAddr} {d : Byte} :
    unpack T = .wr a d ↔ kindOf T = 0b00#2 ∧ addrOf T = a ∧ dataOf T = d := by
  unfold unpack
  split_ifs <;> simp_all

theorem unpack_eq_rd_iff {T : Word} {a : BusAddr} : unpack T = .rd a ↔ kindOf T = 0b01#2 ∧ addrOf T = a := by
  unfold unpack
  split_ifs <;> simp_all

theorem unpack_eq_frame_iff {T : Word} : unpack T = .frame ↔ kindOf T = 0b10#2 := by
  unfold unpack
  split_ifs <;> simp_all

theorem unpack_eq_reset_iff {T : Word} : unpack T = .reset ↔ kindOf T = 0b11#2 := by
  have hkinds : ∀ k : BitVec 2, k ≠ 0b00#2 → k ≠ 0b01#2 → k ≠ 0b10#2 → k = 0b11#2 := by decide
  unfold unpack
  split_ifs with h0 h1 h2
  · simp [h0]
  · simp [h1]
  · simp [h2]
  · simp [hkinds _ h0 h1 h2]

/-- Packing what a word unpacks to keeps all that the word's format reads: the kind, every field of a write, and the address
of a read (R45). -/
theorem pack_unpack (T : Word) :
    kindOf (unpack T).pack = kindOf T ∧ (kindOf T = 0b00#2 → (unpack T).pack = T) ∧
      (kindOf T = 0b01#2 → addrOf (unpack T).pack = addrOf T) := by
  cases hp : unpack T with
  | wr a d =>
    obtain ⟨hkind, rfl, rfl⟩ := unpack_eq_wr_iff.mp hp
    have hword : (BusOp.wr (addrOf T) (dataOf T)).pack = T := by
      have hfields := packWord_fields T
      rwa [hkind] at hfields
    simp [hword]
  | rd a =>
    obtain ⟨hkind, rfl⟩ := unpack_eq_rd_iff.mp hp
    simp [BusOp.pack, hkind]
  | frame => simp [BusOp.pack, unpack_eq_frame_iff.mp hp]
  | reset => simp [BusOp.pack, unpack_eq_reset_iff.mp hp]

/-! ### Selection inverts the generic spelling (R51, R55) -/

/-- An address of a row of several addresses is the row's first address plus the offset that is the operand (R48, R50). -/
theorem base_add_offset {w base : Nat} {a : BusAddr} (hbase : base ≤ a.toNat) (hfits : a.toNat - base < 2 ^ w) :
    BitVec.ofNat 17 (base + (BitVec.ofNat w (a.toNat - base)).toNat) = a := by
  rw [BitVec.toNat_ofNat, Nat.mod_eq_of_lt hfits, Nat.add_sub_cancel' hbase, BitVec.ofNat_toNat, BitVec.setWidth_eq]

/-- An address of a row of several addresses is spelt by a well-formed operation of that row. -/
theorem vwr_of_addr {a : BusAddr} (hlo : Param.winBase ≤ a.toNat) (hhi : a.toNat ≤ Param.winLast) (d : Byte) :
    (Instr.vwr (BitVec.ofNat 14 (a.toNat - Param.winBase)) d).wellFormed = true ∧
      (Instr.vwr (BitVec.ofNat 14 (a.toNat - Param.winBase)) d).toBusOp = .wr a d := by
  simp only [Param.winBase, Param.winLast] at hlo hhi
  refine ⟨?_, congrArg (BusOp.wr · d) (base_add_offset hlo (by simp; omega))⟩
  simp [Instr.wellFormed]
  omega

theorem vwr1_of_addr {a : BusAddr} (hlo : Param.win1Base ≤ a.toNat) (hhi : a.toNat ≤ Param.win1Last) (d : Byte) :
    (Instr.vwr1 (BitVec.ofNat 14 (a.toNat - Param.win1Base)) d).wellFormed = true ∧
      (Instr.vwr1 (BitVec.ofNat 14 (a.toNat - Param.win1Base)) d).toBusOp = .wr a d := by
  simp only [Param.win1Base, Param.win1Last] at hlo hhi
  refine ⟨?_, congrArg (BusOp.wr · d) (base_add_offset hlo (by simp; omega))⟩
  simp [Instr.wellFormed]
  omega

theorem pal_of_addr {a : BusAddr} (hlo : Param.palBase ≤ a.toNat) (hhi : a.toNat ≤ Param.palLast) (d : Byte) :
    (Instr.pal (BitVec.ofNat 7 (a.toNat - Param.palBase)) d).wellFormed = true ∧
      (Instr.pal (BitVec.ofNat 7 (a.toNat - Param.palBase)) d).toBusOp = .wr a d := by
  simp only [Param.palBase, Param.palLast] at hlo hhi
  exact ⟨rfl, congrArg (BusOp.wr · d) (base_add_offset hlo (by simp; omega))⟩

theorem wr_eq_of_toNat_eq {a b : BusAddr} (d : Byte) (h : a.toNat = b.toNat) : BusOp.wr b d = .wr a d :=
  congrArg (BusOp.wr · d) (BitVec.eq_of_toNat_eq h.symm)

/-- The spelling of a selected write is that write. -/
theorem toBusOp_of_selectWrite {a : BusAddr} {d : Byte} {i : Instr} (h : selectWrite a d = .ok i) :
    i.wellFormed = true ∧ i.toBusOp = .wr a d := by
  simp only [selectWrite, ite_eq_iff] at h
  rcases h with ⟨hsetx, ⟨⟩⟩ | ⟨-, ⟨hsety, ⟨⟩⟩ | ⟨-, ⟨hplot, ⟨⟩⟩ | ⟨-, ⟨⟨hlo, hhi⟩, ⟨⟩⟩ | ⟨-, ⟨⟨hlo, hhi⟩, ⟨⟩⟩ | ⟨-, ⟨haix, ⟨⟩⟩ |
    ⟨-, ⟨haiy, ⟨⟩⟩ | ⟨-, ⟨hboth, ⟨⟩⟩ | ⟨-, ⟨hvbank, ⟨⟩⟩ | ⟨-, ⟨hcbank, ⟨⟩⟩ | ⟨-, ⟨⟨hlo, hhi⟩, ⟨⟩⟩ | ⟨-, ⟨⟩⟩⟩⟩⟩⟩⟩⟩⟩⟩⟩⟩
  · exact ⟨rfl, wr_eq_of_toNat_eq d hsetx⟩
  · exact ⟨rfl, wr_eq_of_toNat_eq d hsety⟩
  · exact ⟨rfl, wr_eq_of_toNat_eq d hplot⟩
  · exact vwr_of_addr hlo hhi d
  · exact pal_of_addr hlo hhi d
  · exact ⟨rfl, wr_eq_of_toNat_eq d haix⟩
  · exact ⟨rfl, wr_eq_of_toNat_eq d haiy⟩
  · exact ⟨rfl, wr_eq_of_toNat_eq d hboth⟩
  · exact ⟨rfl, wr_eq_of_toNat_eq d hvbank⟩
  · exact ⟨rfl, wr_eq_of_toNat_eq d hcbank⟩
  · exact vwr1_of_addr hlo hhi d

/-- The spelling of a selected read is that read. -/
theorem toBusOp_of_selectRead {a : BusAddr} {i : Instr} (h : selectRead a = .ok i) :
    i.wellFormed = true ∧ i.toBusOp = .rd a := by
  simp only [selectRead, ite_eq_iff] at h
  rcases h with ⟨hgetx, ⟨⟩⟩ | ⟨-, ⟨hgety, ⟨⟩⟩ | ⟨-, ⟨hpeek, ⟨⟩⟩ | ⟨-, ⟨⟩⟩⟩⟩
  · exact ⟨rfl, congrArg BusOp.rd (BitVec.eq_of_toNat_eq hgetx.symm)⟩
  · exact ⟨rfl, congrArg BusOp.rd (BitVec.eq_of_toNat_eq hgety.symm)⟩
  · exact ⟨rfl, congrArg BusOp.rd (BitVec.eq_of_toNat_eq hpeek.symm)⟩

/-- The rows of several addresses give the offset back, a window row up to the last offset 0x39FF. -/
theorem selectWrite_window {r : BitVec 14} (hr : r.toNat < Param.bankSize) (d : Byte) :
    selectWrite (BitVec.ofNat 17 (Param.winBase + r.toNat)) d = .ok (.vwr r d) := by
  simp only [Param.bankSize] at hr
  have ha : (BitVec.ofNat 17 (Param.winBase + r.toNat)).toNat = 0x600 + r.toNat := by
    simp
    omega
  simp (disch := omega) [selectWrite, ha, if_neg, if_pos]

theorem selectWrite_window1 {r : BitVec 14} (hr : r.toNat < Param.bankSize) (d : Byte) :
    selectWrite (BitVec.ofNat 17 (Param.win1Base + r.toNat)) d = .ok (.vwr1 r d) := by
  simp only [Param.bankSize] at hr
  have ha : (BitVec.ofNat 17 (Param.win1Base + r.toNat)).toNat = 0x10600 + r.toNat := by
    simp
    omega
  simp (disch := omega) [selectWrite, ha, if_neg, if_pos]

theorem selectWrite_palette (o : BitVec 7) (d : Byte) :
    selectWrite (BitVec.ofNat 17 (Param.palBase + o.toNat)) d = .ok (.pal o d) := by
  have ho := o.isLt
  have ha : (BitVec.ofNat 17 (Param.palBase + o.toNat)).toNat = 0x5500 + o.toNat := by
    simp
    omega
  simp (disch := omega) [selectWrite, ha, if_neg, if_pos]

/-- Selection gives back a well-formed operation from its spelling. -/
theorem select_toBusOp {i : Instr} (h : i.wellFormed = true) : select i.toBusOp = .ok i := by
  cases i with
  | setx d | sety d | plot d | aix d | aiy d | both d | vbank d | cbank d => rfl
  | getx | gety | peek | frame | reset => rfl
  | vwr r d => exact selectWrite_window (by simpa [Instr.wellFormed] using h) d
  | vwr1 r d => exact selectWrite_window1 (by simpa [Instr.wellFormed] using h) d
  | pal o d => exact selectWrite_palette o d

/-- The operation a generic spelling selects is the well-formed one spelt so. -/
theorem select_eq_ok_iff {p : BusOp} {i : Instr} : select p = .ok i ↔ i.wellFormed = true ∧ i.toBusOp = p := by
  constructor
  · intro h
    cases p with
    | wr a d => exact toBusOp_of_selectWrite h
    | rd a => exact toBusOp_of_selectRead h
    | frame | reset =>
      cases h
      exact ⟨rfl, rfl⟩
  · rintro ⟨hwf, rfl⟩
    exact select_toBusOp hwf

/-- The same for a word: it decodes to the well-formed operation its format spells. -/
theorem decode_eq_ok_iff {T : Word} {i : Instr} :
    decode T = .ok i ↔ i.wellFormed = true ∧ i.toBusOp = unpack T := select_eq_ok_iff

/-- Settles O2: unpacking the packed word gives the spelling back, and selection inverts the spelling. -/
theorem decodeOfEncodeIsTheOperation : Obligations.DecodeOfEncodeIsTheOperation := by
  intro i hwf
  rw [decode_eq_ok_iff, encode, unpack_pack]
  exact ⟨hwf, rfl⟩

/-- Settles O3: the word of the decoded operation is the repacked word. -/
theorem encodeOfDecodeIsTheWord : Obligations.EncodeOfDecodeIsTheWord := by
  intro T i hdecode
  obtain ⟨hwf, hspelling⟩ := decode_eq_ok_iff.mp hdecode
  rw [encode, hspelling]
  exact ⟨hwf, pack_unpack T⟩

/-- Settles O1: the eighteen words are evaluated. -/
theorem wordsOfTheSpecDecode : Obligations.WordsOfTheSpecDecode := by
  unfold Obligations.WordsOfTheSpecDecode
  decide

/-! ### The undecoded addresses (R52, R53) -/

theorem selectWrite_eq_error_iff {a : BusAddr} {d : Byte} {e : Undecoded} :
    selectWrite a d = .error e ↔ e = .write a ∧
      ((0x00003 ≤ a.toNat ∧ a.toNat ≤ 0x005FF) ∨ (0x04000 ≤ a.toNat ∧ a.toNat ≤ 0x054FF) ∨ a.toNat = 0x05582 ∨
        a.toNat = 0x05583 ∨ a.toNat = 0x05585 ∨ (0x05588 ≤ a.toNat ∧ a.toNat ≤ 0x105FF) ∨
        (0x14000 ≤ a.toNat ∧ a.toNat ≤ 0x1FFFF)) := by
  have ha := a.isLt
  simp only [selectWrite, ite_eq_iff, reduceCtorEq, and_false, false_or, Except.error.injEq, eq_comm (a := e),
    Param.winBase, Param.winLast, Param.palBase, Param.palLast, Param.aixAddr, Param.aiyAddr, Param.bothAddr,
    Param.vbankAddr, Param.cbankAddr, Param.win1Base, Param.win1Last]
  by_cases he : Undecoded.write a = e
  · simp only [he, and_true, true_and]
    omega
  · simp only [he, and_false, false_and]

theorem selectRead_eq_error_iff {a : BusAddr} {e : Undecoded} :
    selectRead a = .error e ↔ e = .read a ∧ 0x00003 ≤ a.toNat := by
  simp only [selectRead, ite_eq_iff, reduceCtorEq, and_false, false_or, Except.error.injEq, eq_comm (a := e)]
  by_cases he : Undecoded.read a = e
  · simp only [he, and_true, true_and]
    omega
  · simp only [he, and_false, false_and]

/-- Settles O5, format by format: a write is rejected by `selectWrite` only, a read by `selectRead` only, a strobe never. -/
theorem rejectedWordsAreTheUndecodedOnes : Obligations.RejectedWordsAreTheUndecodedOnes := by
  intro T
  cases hp : unpack T with
  | wr a d =>
    obtain ⟨hkind, rfl, -⟩ := unpack_eq_wr_iff.mp hp
    simp [decode, hp, select, selectWrite_eq_error_iff, hkind]
  | rd a =>
    obtain ⟨hkind, rfl⟩ := unpack_eq_rd_iff.mp hp
    simp [decode, hp, select, selectRead_eq_error_iff, hkind]
  | frame => simp [decode, hp, select, unpack_eq_frame_iff.mp hp]
  | reset => simp [decode, hp, select, unpack_eq_reset_iff.mp hp]

end Sys2Proof
end

section
/-! SUPPORT. Family 30_encoding: the match/mask/bounds table (30_encoding.md R51) against the decoder. -/

namespace Sys2Proof

/-! ### Which words select a row, by kind and address -/

/-- A row of one address: every bit of the kind and the address is matched. -/
theorem selects_iff_of_mask8 {row : OpRow} {k : BitVec 2} {a : BusAddr} {T : Word} (hmask : row.mask = 0x7FFFF00#27)
    (hbits : row.bits = packWord k a 0) (hlo : row.addrLo = 0) (hhi : row.addrHi = 0x1FFFF) :
    row.selects T = true ↔ kindOf T = k ∧ addrOf T = a := by
  have hk := k.isLt
  have ha := a.isLt
  have hT := T.isLt
  have hbits' : row.bits = BitVec.ofNat 27 ((2 ^ 17 * k.toNat + a.toNat) * 2 ^ 8) := by
    rw [hbits, packWord]
    congr 1
    simp
    omega
  rw [selects_iff (hmask.trans mask8) hbits' (by decide) (by omega), hlo, hhi, ← BitVec.toNat_inj, ← BitVec.toNat_inj,
    kindOf_toNat, addrOf_toNat]
  omega

/-- A strobe's row: the kind alone is matched. -/
theorem selects_iff_of_mask25 {row : OpRow} {k : BitVec 2} {T : Word} (hmask : row.mask = 0x6000000#27)
    (hbits : row.bits = packWord k 0 0) (hlo : row.addrLo = 0) (hhi : row.addrHi = 0x1FFFF) :
    row.selects T = true ↔ kindOf T = k := by
  have hk := k.isLt
  have hbits' : row.bits = BitVec.ofNat 27 (k.toNat * 2 ^ 25) := by
    rw [hbits, packWord]
    congr 1
    simp
    omega
  rw [selects_iff (hmask.trans mask25) hbits' (by decide) (by omega), hlo, hhi, ← BitVec.toNat_inj, kindOf_toNat]
  omega

theorem vwr_selects_iff {r : BitVec 14} {d : Byte} {T : Word} :
    (Instr.vwr r d).row.selects T = true ↔
      kindOf T = 0b00#2 ∧ Param.winBase ≤ (addrOf T).toNat ∧ (addrOf T).toNat ≤ Param.winLast := by
  have hT := T.isLt
  rw [selects_iff (row := (Instr.vwr r d).row) (c := 0) mask22 rfl (by decide) (by decide), ← BitVec.toNat_inj,
    kindOf_toNat, addrOf_toNat]
  simp [Instr.row]
  omega

theorem vwr1_selects_iff {r : BitVec 14} {d : Byte} {T : Word} :
    (Instr.vwr1 r d).row.selects T = true ↔
      kindOf T = 0b00#2 ∧ Param.win1Base ≤ (addrOf T).toNat ∧ (addrOf T).toNat ≤ Param.win1Last := by
  have hT := T.isLt
  rw [selects_iff (row := (Instr.vwr1 r d).row) (c := 4) mask22 rfl (by decide) (by decide), ← BitVec.toNat_inj,
    kindOf_toNat, addrOf_toNat]
  simp [Instr.row]
  omega

theorem pal_selects_iff {o : BitVec 7} {d : Byte} {T : Word} :
    (Instr.pal o d).row.selects T = true ↔
      kindOf T = 0b00#2 ∧ Param.palBase ≤ (addrOf T).toNat ∧ (addrOf T).toNat ≤ Param.palLast := by
  have hT := T.isLt
  rw [selects_iff (row := (Instr.pal o d).row) (c := 0xAA) mask15 rfl (by decide) (by decide), ← BitVec.toNat_inj,
    kindOf_toNat, addrOf_toNat]
  simp [Instr.row]
  omega

/-! ### A selected row's operation is what the word decodes to, and the other way round -/

theorem row_mem_opTable (i : Instr) : i.row ∈ opTable := by
  cases i <;> simp [opTable, Instr.row]

/-- Every row of the table is some operation's. -/
theorem exists_row_of_mem_opTable {row : OpRow} (h : row ∈ opTable) : ∃ i : Instr, i.row = row := by
  simp only [opTable, List.mem_cons, List.not_mem_nil, or_false] at h
  rcases h with h | h | h | h | h | h | h | h | h | h | h | h | h | h | h | h <;> exact ⟨_, h.symm⟩

/-- A word that decodes selects the row of its operation. -/
theorem row_selects_of_decode {T : Word} {i : Instr} (h : decode T = .ok i) : i.row.selects T = true := by
  obtain ⟨hwf, hspelling⟩ := decode_eq_ok_iff.mp h
  cases i with
  | setx d | sety d | plot d | aix d | aiy d | both d | vbank d | cbank d =>
    obtain ⟨hkind, haddr, -⟩ := unpack_eq_wr_iff.mp hspelling.symm
    exact (selects_iff_of_mask8 rfl rfl rfl rfl).mpr ⟨hkind, haddr⟩
  | getx | gety | peek =>
    obtain ⟨hkind, haddr⟩ := unpack_eq_rd_iff.mp hspelling.symm
    exact (selects_iff_of_mask8 rfl rfl rfl rfl).mpr ⟨hkind, haddr⟩
  | vwr r d =>
    obtain ⟨hkind, haddr, -⟩ := unpack_eq_wr_iff.mp hspelling.symm
    have hr : r.toNat < 0x3A00 := by simpa [Instr.wellFormed] using hwf
    refine vwr_selects_iff.mpr ⟨hkind, ?_⟩
    rw [haddr]
    simp
    omega
  | vwr1 r d =>
    obtain ⟨hkind, haddr, -⟩ := unpack_eq_wr_iff.mp hspelling.symm
    have hr : r.toNat < 0x3A00 := by simpa [Instr.wellFormed] using hwf
    refine vwr1_selects_iff.mpr ⟨hkind, ?_⟩
    rw [haddr]
    simp
    omega
  | pal o d =>
    obtain ⟨hkind, haddr, -⟩ := unpack_eq_wr_iff.mp hspelling.symm
    have ho := o.isLt
    refine pal_selects_iff.mpr ⟨hkind, ?_⟩
    rw [haddr]
    simp
    omega
  | frame => exact (selects_iff_of_mask25 rfl rfl rfl rfl).mpr (unpack_eq_frame_iff.mp hspelling.symm)
  | reset => exact (selects_iff_of_mask25 rfl rfl rfl rfl).mpr (unpack_eq_reset_iff.mp hspelling.symm)

/-- A bus write decodes to the well-formed operation spelt as that write. -/
theorem decode_write {T : Word} {i : Instr} (hkind : kindOf T = 0b00#2)
    (h : i.wellFormed = true ∧ i.toBusOp = .wr (addrOf T) (dataOf T)) : decode T = .ok i :=
  decode_eq_ok_iff.mpr ⟨h.1, h.2.trans (unpack_eq_wr_iff.mpr ⟨hkind, rfl, rfl⟩).symm⟩

/-- A word in the row of a write at one address decodes to that write of the word's datum. -/
theorem decode_of_selects_write {op : Byte → Instr} {row : OpRow} {a : BusAddr} {T : Word}
    (hop : ∀ d, (op d).wellFormed = true ∧ (op d).toBusOp = .wr a d) (hmask : row.mask = 0x7FFFF00#27)
    (hbits : row.bits = packWord 0b00 a 0) (hlo : row.addrLo = 0) (hhi : row.addrHi = 0x1FFFF)
    (h : row.selects T = true) : decode T = .ok (op (dataOf T)) := by
  obtain ⟨hkind, rfl⟩ := (selects_iff_of_mask8 hmask hbits hlo hhi).mp h
  exact decode_write hkind (hop _)

/-- A word in the row of a read decodes to that read. -/
theorem decode_of_selects_read {i : Instr} {a : BusAddr} {T : Word} (hwf : i.wellFormed = true)
    (hspelling : i.toBusOp = .rd a) (hmask : i.row.mask = 0x7FFFF00#27) (hbits : i.row.bits = packWord 0b01 a 0)
    (hlo : i.row.addrLo = 0) (hhi : i.row.addrHi = 0x1FFFF) (h : i.row.selects T = true) : decode T = .ok i :=
  decode_eq_ok_iff.mpr
    ⟨hwf, hspelling.trans (unpack_eq_rd_iff.mpr ((selects_iff_of_mask8 hmask hbits hlo hhi).mp h)).symm⟩

/-- A word that selects a row decodes to an operation of that row. -/
theorem exists_decode_of_row_selects {i : Instr} {T : Word} (h : i.row.selects T = true) :
    ∃ j, decode T = .ok j ∧ j.row = i.row := by
  cases i with
  | setx _ => exact ⟨_, decode_of_selects_write (op := .setx) (fun _ => ⟨rfl, rfl⟩) rfl rfl rfl rfl h, rfl⟩
  | sety _ => exact ⟨_, decode_of_selects_write (op := .sety) (fun _ => ⟨rfl, rfl⟩) rfl rfl rfl rfl h, rfl⟩
  | plot _ => exact ⟨_, decode_of_selects_write (op := .plot) (fun _ => ⟨rfl, rfl⟩) rfl rfl rfl rfl h, rfl⟩
  | aix _ => exact ⟨_, decode_of_selects_write (op := .aix) (fun _ => ⟨rfl, rfl⟩) rfl rfl rfl rfl h, rfl⟩
  | aiy _ => exact ⟨_, decode_of_selects_write (op := .aiy) (fun _ => ⟨rfl, rfl⟩) rfl rfl rfl rfl h, rfl⟩
  | both _ => exact ⟨_, decode_of_selects_write (op := .both) (fun _ => ⟨rfl, rfl⟩) rfl rfl rfl rfl h, rfl⟩
  | vbank _ => exact ⟨_, decode_of_selects_write (op := .vbank) (fun _ => ⟨rfl, rfl⟩) rfl rfl rfl rfl h, rfl⟩
  | cbank _ => exact ⟨_, decode_of_selects_write (op := .cbank) (fun _ => ⟨rfl, rfl⟩) rfl rfl rfl rfl h, rfl⟩
  | getx | gety | peek => exact ⟨_, decode_of_selects_read rfl rfl rfl rfl rfl rfl h, rfl⟩
  | vwr _ _ =>
    obtain ⟨hkind, hlo, hhi⟩ := vwr_selects_iff.mp h
    exact ⟨_, decode_write hkind (vwr_of_addr hlo hhi (dataOf T)), by simp only [Instr.row]⟩
  | vwr1 _ _ =>
    obtain ⟨hkind, hlo, hhi⟩ := vwr1_selects_iff.mp h
    exact ⟨_, decode_write hkind (vwr1_of_addr hlo hhi (dataOf T)), by simp only [Instr.row]⟩
  | pal _ _ =>
    obtain ⟨hkind, hlo, hhi⟩ := pal_selects_iff.mp h
    exact ⟨_, decode_write hkind (pal_of_addr hlo hhi (dataOf T)), by simp only [Instr.row]⟩
  | frame =>
    have hkind := (selects_iff_of_mask25 (k := 0b10) rfl rfl rfl rfl).mp h
    exact ⟨.frame, decode_eq_ok_iff.mpr ⟨rfl, (unpack_eq_frame_iff.mpr hkind).symm⟩, rfl⟩
  | reset =>
    have hkind := (selects_iff_of_mask25 (k := 0b11) rfl rfl rfl rfl).mp h
    exact ⟨.reset, decode_eq_ok_iff.mpr ⟨rfl, (unpack_eq_reset_iff.mpr hkind).symm⟩, rfl⟩

/-- Settles O4: a selected row is the row of what the word decodes to, and a word decodes to one operation only. -/
theorem decodeFollowsTheMaskTable : Obligations.DecodeFollowsTheMaskTable := by
  refine ⟨fun T i hdecode => ⟨row_mem_opTable i, row_selects_of_decode hdecode, fun row hrow hselects => ?_⟩,
    fun T row hrow hselects => ?_⟩
  · obtain ⟨k, rfl⟩ := exists_row_of_mem_opTable hrow
    obtain ⟨j, hj, hrow_eq⟩ := exists_decode_of_row_selects hselects
    cases hdecode.symm.trans hj
    exact hrow_eq.symm
  · obtain ⟨k, rfl⟩ := exists_row_of_mem_opTable hrow
    obtain ⟨j, hj, -⟩ := exists_decode_of_row_selects hselects
    exact ⟨j, hj⟩

end Sys2Proof
end

section
/-! SUPPORT. Family 30_encoding: the steps of undecoded accesses, of placed words and of ill-formed window terms
(30_encoding.md R46, R52, R53). -/

namespace Sys2Proof.Machine

/-- Settles O7: `fetch` takes the access off the list, and an access that is no operation gives nothing. -/
theorem undecodedAccessChangesNothing : Obligations.UndecodedAccessChangesNothing := by
  intro s q rest e hpending hdecode
  rw [step, fetch_cons hpending]
  simp only [hdecode, State.notAddressed]

/-- A whole word given as a number of at least 27 bits is presented as it is. -/
theorem State.withFetchWord_toNat (s : State) {nbits : Nat} (hbits : 27 ≤ nbits) (T : Word) :
    s.withFetchWord nbits T.toNat = s.present T := by
  have hT : T.toNat < 2 ^ nbits := Nat.lt_of_lt_of_le T.isLt (Nat.pow_le_pow_right (by decide) hbits)
  rw [State.withFetchWord, Nat.mod_eq_of_lt hT, BitVec.ofNat_toNat, BitVec.setWidth_eq]

/-- Settles O10: the placed word is the presented one, it decodes to the operation, and the list and the sprite table left
are the state's own. -/
theorem placedWordIsPerformedNext : Obligations.PlacedWordIsPerformedNext := by
  intro s i hwf
  rw [State.withFetchWord_toNat s (by decide)]
  exact stepPerformsThePresentedOperation (s.present (encode i)) ⟨encode i, s.spr⟩ s.pending i rfl
    (decodeOfEncodeIsTheOperation i hwf)

/-- Settles O33: the bound of R55 fails for such an offset, in `wellFormed` and in the effect of either operation. -/
theorem offsetsOutsideTheWindowChangeNothing : Obligations.OffsetsOutsideTheWindowChangeNothing := by
  intro r d s hr
  have houtside : ¬ r.toNat < Param.bankSize := Nat.not_lt.mpr hr
  refine ⟨decide_eq_false houtside, decide_eq_false houtside, ?_, ?_⟩
  · rw [exec_vwr]
    simp only [if_neg houtside, State.act]
  · rw [exec_vwr1]
    simp only [if_neg houtside, State.act]

end Sys2Proof.Machine
end

section
/-! SUPPORT. Family 40_control_flags: the flag writes, their words, and what AIX and AIY do to any number of PLOTs after them
(40_control_flags.md R60 to R65). -/

namespace Sys2Proof.Machine

/-! ### The coordinates after a run of PLOTs -/

/-- R15, R16: an increment is enabled exactly by the register values below 0x80. -/
theorem autoIncrement_iff (v : Byte) : autoIncrement v = true ↔ v.toNat < 0x80 := by
  rw [autoIncrement, Bool.not_eq_true', ← Bool.not_eq_true, topBit_iff, Nat.not_le]

/-- Where `n` PLOTs take a coordinate `v` whose auto-increment register is `flag` (R61, R62). -/
def coordAfterPlots (flag v : Byte) (n : Nat) : Byte :=
  if flag.toNat < 0x80 then v + BitVec.ofNat 8 n else v

theorem coordAfterPlots_zero (flag v : Byte) : coordAfterPlots flag v 0 = v := by
  simp [coordAfterPlots]

/-- The first PLOT of a run moves the coordinate on for the others. -/
theorem coordAfterPlots_succ (flag v : Byte) (n : Nat) :
    coordAfterPlots flag v (n + 1) = coordAfterPlots flag (coordAfterPlots flag v 1) n := by
  unfold coordAfterPlots
  split
  · rw [Nat.add_comm n 1, BitVec.ofNat_add, BitVec.add_assoc]
  · rfl

theorem Block.plot_x (b : Block) (d : Byte) : (b.plot d).x = coordAfterPlots b.aix b.x 1 := by
  simp [Block.plot_eq, autoIncrement_iff, coordAfterPlots]

theorem Block.plot_y (b : Block) (d : Byte) : (b.plot d).y = coordAfterPlots b.aiy b.y 1 := by
  simp [Block.plot_eq, autoIncrement_iff, coordAfterPlots]

/-- Operations whose first one goes on are performed as the others from where it leads (R41). -/
theorem perform_cons {i : Instr} {s t : State} (hexec : exec i s = .next t) (is : List Instr) :
    perform (i :: is) s = perform is t := by
  rw [perform, hexec]

/-- Any number of PLOTs run to completion; each coordinate goes where its own register takes it. -/
theorem perform_plots (ds : List Byte) (s : State) :
    ∃ t, perform (ds.map Instr.plot) s = .next t ∧
      t.blk.x = coordAfterPlots s.blk.aix s.blk.x ds.length ∧
      t.blk.y = coordAfterPlots s.blk.aiy s.blk.y ds.length := by
  induction ds generalizing s with
  | nil => exact ⟨s, rfl, (coordAfterPlots_zero _ _).symm, (coordAfterPlots_zero _ _).symm⟩
  | cons d ds ih =>
    obtain ⟨t, hperform, hx, hy⟩ := ih (s.act (·.plot d))
    obtain ⟨haix, haiy, -⟩ := Block.plot_frame s.blk d
    rw [State.act_blk, haix, Block.plot_x, ← coordAfterPlots_succ] at hx
    rw [State.act_blk, haiy, Block.plot_y, ← coordAfterPlots_succ] at hy
    exact ⟨t, (perform_cons (exec_plot d s) _).trans hperform, hx, hy⟩

/-! ### The flag writes -/

/-- Settles O11: the word is `encode (.aix d)`, and the run of PLOTs starts with the datum in `AIX`. -/
theorem aixWriteStoresAndGates : Obligations.AixWriteStoresAndGates := by
  intro d s
  refine ⟨decodeOfEncodeIsTheOperation (.aix d) rfl, exec_aix d s, fun ds => ?_⟩
  obtain ⟨t, hperform, hx, -⟩ := perform_plots ds (s.act (·.setAix d))
  exact ⟨t, (perform_cons (exec_aix d s) _).trans hperform, hx⟩

/-- Settles O12: the word is `encode (.aiy d)`, and the run of PLOTs starts with the datum in `AIY` and the old `AIX`. -/
theorem aiyWriteStoresAndGates : Obligations.AiyWriteStoresAndGates := by
  intro d s
  refine ⟨decodeOfEncodeIsTheOperation (.aiy d) rfl, exec_aiy d s, fun ds => ?_⟩
  obtain ⟨t, hperform, hx, hy⟩ := perform_plots ds (s.act (·.setAiy d))
  exact ⟨t, (perform_cons (exec_aiy d s) _).trans hperform, hy, hx⟩

/-- Settles O13: each of the three operations acts by its register's setter, and each word is the operation's own. -/
theorem bankFlagWritesStoreTheByte : Obligations.BankFlagWritesStoreTheByte := fun d s =>
  ⟨exec_both d s, exec_vbank d s, exec_cbank d s, decodeOfEncodeIsTheOperation (.both d) rfl,
    decodeOfEncodeIsTheOperation (.vbank d) rfl, decodeOfEncodeIsTheOperation (.cbank d) rfl⟩

end Sys2Proof.Machine
end

section
/-! SUPPORT. Family 41_palette_decoder: a palette write against the weighted inverted bits (41_palette_decoder.md R70 to R73),
which writes give one triple (R76), and the one rebuild after any palette writes (R74). -/

namespace Sys2Proof.Machine

/-! ### The component values (R72, R73) -/

/-- No group overflows a byte: the three weights sum to 0xFF. -/
theorem weigh_toNat (b0 b1 b2 : Bool) :
    (weigh b0 b1 b2).toNat = 0x21 * b0.toNat + 0x47 * b1.toNat + 0x97 * b2.toNat := by
  cases b0 <;> cases b1 <;> cases b2 <;> decide

theorem bool_toNat_inj {a b : Bool} : a.toNat = b.toNat ↔ a = b := by
  cases a <;> cases b <;> decide

/-- Each set of weights has a sum of its own: 0x21 < 0x47 and 0x21 + 0x47 < 0x97 (R76). -/
theorem weigh_inj {b0 b1 b2 c0 c1 c2 : Bool} :
    weigh b0 b1 b2 = weigh c0 c1 c2 ↔ b0 = c0 ∧ b1 = c1 ∧ b2 = c2 := by
  have hb0 := b0.toNat_le
  have hb1 := b1.toNat_le
  have hb2 := b2.toNat_le
  have hc0 := c0.toNat_le
  have hc1 := c1.toNat_le
  have hc2 := c2.toNat_le
  rw [← BitVec.toNat_inj, weigh_toNat, weigh_toNat, ← bool_toNat_inj, ← bool_toNat_inj, ← bool_toNat_inj]
  omega

/-- A bit of a word as plain arithmetic. -/
theorem getLsbD_toNat {w : Nat} (v : BitVec w) (i : Nat) : (v.getLsbD i).toNat = v.toNat / 2 ^ i % 2 :=
  Nat.toNat_testBit v.toNat i

/-- An inverted bit of a word as plain arithmetic (R71). -/
theorem not_getLsbD_toNat {w : Nat} (v : BitVec w) (i : Nat) :
    (!v.getLsbD i).toNat = 1 - v.toNat / 2 ^ i % 2 := by
  rw [← getLsbD_toNat]
  cases v.getLsbD i <;> rfl

theorem decodeColour_red_toNat (o : BitVec 7) (d : Byte) :
    (decodeColour o d).red.toNat =
      0x21 * (1 - d.toNat / 32 % 2) + 0x47 * (1 - d.toNat / 64 % 2) + 0x97 * (1 - d.toNat / 128 % 2) := by
  simp [decodeColour, weigh_toNat, not_getLsbD_toNat, -BitVec.getLsbD_eq_getElem]

theorem decodeColour_green_toNat (o : BitVec 7) (d : Byte) :
    (decodeColour o d).green.toNat =
      0x21 * (1 - d.toNat / 4 % 2) + 0x47 * (1 - d.toNat / 8 % 2) + 0x97 * (1 - d.toNat / 16 % 2) := by
  simp [decodeColour, weigh_toNat, not_getLsbD_toNat, -BitVec.getLsbD_eq_getElem]

theorem decodeColour_blue_toNat (o : BitVec 7) (d : Byte) :
    (decodeColour o d).blue.toNat =
      0x21 * (1 - d.toNat % 2) + 0x47 * (1 - d.toNat / 2 % 2) + 0x97 * (1 - o.toNat / 64 % 2) := by
  simp [decodeColour, weigh_toNat, not_getLsbD_toNat, -BitVec.getLsbD_eq_getElem]

/-! ### The entry written (R70, R72) -/

theorem paletteSlot_val (o : BitVec 7) : (paletteSlot o).val = o.toNat % 64 := by
  simp [paletteSlot, BitVec.extractLsb'_toNat]

/-- A palette write replaces the entry at the offset modulo 64 and keeps the others. -/
theorem Block.getElem?_writePalette (b : Block) (o : BitVec 7) (d : Byte) (k : Nat) :
    (b.writePalette o d).pal[k]? = if k = o.toNat % 64 then some (decodeColour o d) else b.pal[k]? := by
  simp [Block.writePalette_eq, Vector.getElem?_set, paletteSlot_val, eq_comm]

/-- Settles O15: the new entry is the decoded colour, whose components are the weighted sums, and the word is
`encode (.pal o d)`. -/
theorem palWritesTheDecodedEntry : Obligations.PalWritesTheDecodedEntry := by
  intro o d s
  refine ⟨s.act (·.writePalette o d), decodeColour o d, exec_pal o d s, rfl, ?_, fun k hk => ?_,
    decodeColour_red_toNat o d, decodeColour_green_toNat o d, decodeColour_blue_toNat o d,
    decodeOfEncodeIsTheOperation (.pal o d) rfl⟩
  · rw [State.act_blk, Block.getElem?_writePalette, if_pos rfl]
  · rw [State.act_blk, Block.getElem?_writePalette, if_neg hk]

/-! ### Which writes give one triple (R76) -/

/-- Bit 6 of a palette offset is all of it above the slot. -/
theorem bit6_eq_iff (o o' : BitVec 7) : o.getLsbD 6 = o'.getLsbD 6 ↔ o.toNat / 64 = o'.toNat / 64 := by
  have ho := o.isLt
  have ho' := o'.isLt
  rw [← bool_toNat_inj, getLsbD_toNat, getLsbD_toNat]
  omega

/-- The triple tells apart each of the eight bits of the datum and bit 6 of the offset. -/
theorem decodeColour_eq_iff_bits (o o' : BitVec 7) (d d' : Byte) :
    decodeColour o d = decodeColour o' d' ↔
      (∀ i < 8, d.getLsbD i = d'.getLsbD i) ∧ o.getLsbD 6 = o'.getLsbD 6 := by
  simp only [decodeColour, Rgb.mk.injEq, weigh_inj, Bool.not_inj_iff, Nat.forall_lt_succ_right, Nat.not_lt_zero]
  tauto

/-- Settles O16: equal triples are equal bits, and equal bits are equal data. -/
theorem paletteTriplesAreDistinct : Obligations.PaletteTriplesAreDistinct := by
  intro o o' d d'
  rw [decodeColour_eq_iff_bits, bit6_eq_iff, BitVec.eq_of_getLsbD_eq_iff]

/-! ### One rebuild after any palette writes (R74) -/

/-- Any number of palette writes run to completion; none paints, and none clears `dirty`. -/
theorem perform_pals (ps : List (BitVec 7 × Byte)) (s : State) :
    ∃ t, perform (ps.map fun q => Instr.pal q.1 q.2) s = .next t ∧
      (s.blk.dirty = true → t.blk.dirty = true) ∧ t.blk.wb = s.blk.wb := by
  induction ps generalizing s with
  | nil => exact ⟨s, rfl, id, rfl⟩
  | cons p ps ih =>
    obtain ⟨t, hperform, hdirty, hwb⟩ := ih (s.act (·.writePalette p.1 p.2))
    exact ⟨t, (perform_cons (exec_pal p.1 p.2 s) _).trans hperform, fun _ => hdirty rfl, hwb⟩

theorem Block.refresh_of_dirty {b : Block} (h : b.dirty = true) : b.refresh = b.rebuild.setDirty false :=
  if_pos h

theorem Block.refresh_of_clean {b : Block} (h : b.dirty = false) : b.refresh = b := by
  rw [Block.refresh, h, if_neg Bool.false_ne_true]

/-- Settles O18: the first write sets `dirty` and the others keep it, so the next FRAME rebuilds; that FRAME clears it, so a
further one finds a clean block. -/
theorem paletteWritesCauseOneRebuild : Obligations.PaletteWritesCauseOneRebuild := by
  intro p ps s
  obtain ⟨t, hperform, hdirty, hwb⟩ := perform_pals ps (s.act (·.writePalette p.1 p.2))
  have hset : t.blk.dirty = true := hdirty rfl
  have hframe : (t.frameWith Config.tiles).blk = t.blk.rebuild.setDirty false := Block.refresh_of_dirty hset
  have hclean : (t.frameWith Config.tiles).blk.dirty = false := by rw [hframe, Block.setDirty_dirty]
  refine ⟨t, t.frameWith Config.tiles, _, (perform_cons (exec_pal p.1 p.2 s) _).trans hperform, hset, hwb,
    exec_frame t, ?_, hclean, exec_frame _, Block.refresh_of_clean hclean⟩
  rw [hframe, Block.setDirty_wb]

end Sys2Proof.Machine
end

section
/-! SUPPORT. Family 42_indexed_bitmap_addresser: the cursor operations, the nibble an access of the indexed port names, and what
PLOT and PEEK do row by row (42_indexed_bitmap_addresser.md R79 to R89). -/

namespace Sys2Proof.Machine

open Sys2Proof.Claims

/-! ### The nibble of a pixel (R80, R82, R85) -/

/-- A byte as the two nibbles a `Spot` can name. -/
theorem Block.nibRead_toNat (b : Block) (q : Spot) :
    (b.nibRead q).toNat =
      if q.high = true then (Memory.read (b.store q.store) q.index).toNat / 16
      else (Memory.read (b.store q.store) q.index).toNat % 16 := by
  unfold Block.nibRead Block.memRead
  split
  · exact hi_toNat _
  · exact lo_toNat _

/-- In every row the odd columns are the high nibbles. -/
theorem locate_high_iff (x y : Byte) : (locate x y).high = true ↔ x.toNat % 2 = 1 := by
  rw [← bit0_iff]
  unfold locate
  split <;> rfl

theorem locate_index_of_bank {x y : Byte} (hy : 24 ≤ y.toNat) :
    (locate x y).index = y.toNat * 64 + x.toNat / 4 - 0x600 := by
  rw [locate_bank hy]

theorem locate_index_of_low {x y : Byte} (hy : y.toNat < 24) :
    (locate x y).index = y.toNat * 64 + x.toNat / 4 - 0x300 := by
  rw [locate_low hy]

theorem locate_store_of_bank {x y : Byte} (hy : 24 ≤ y.toNat) :
    (locate x y).store = if x.toNat / 2 % 2 = 1 then .vb1 else .vb0 := by
  simp only [locate_bank hy, bit1_iff]

theorem locate_store_of_low {x y : Byte} (hy : y.toNat < 24) :
    (locate x y).store = if x.toNat / 2 % 2 = 1 then .lr1 else .lr0 := by
  simp only [locate_low hy, bit1_iff]

/-- Rows 24 to 255: the nibble `locate` names is the one the packing of R34 assigns. -/
theorem Block.nibRead_locate_bank (b : Block) {x y : Byte} (hy : 24 ≤ y.toNat) :
    b.nibRead (locate x y) = b.bankPixel x.toNat y.toNat := by
  unfold Block.nibRead Block.memRead Block.bankPixel
  simp only [locate_high_iff, locate_index_of_bank hy, locate_store_of_bank hy, apply_ite b.store,
    apply_ite Memory.read, ite_apply]
  rfl

/-- Rows 24 to 255 lie inside the banks (R81). -/
theorem locate_index_lt_of_bank {x y : Byte} (hy : 24 ≤ y.toNat) : (locate x y).index < 0x3A00 := by
  have hinside := locate_inside (x := x) (Nat.le_trans (by decide) hy)
  rw [locate_store_of_bank hy] at hinside
  split at hinside <;> exact hinside

/-- Settles O29: by the closed forms of `locate` in the bank rows. -/
theorem locateAgreesWithThePacking : Obligations.LocateAgreesWithThePacking := by
  intro b x y hy
  refine ⟨Block.nibRead_locate_bank b hy, locate_index_lt_of_bank hy, ?_⟩
  rw [locate_store_of_bank hy]
  split
  · exact .inr rfl
  · exact .inl rfl

/-- Settles O28: the nibble written decides what is read there, and the byte written is the merged one. -/
theorem nibbleWriteMerges : Obligations.NibbleWriteMerges := by
  intro b q q' v
  refine ⟨?_, fun hne => ?_, ?_, rfl⟩
  · rw [Block.nibRead_nibWrite, if_pos rfl]
  · rw [Block.nibRead_nibWrite, if_neg hne]
  · rw [Block.nibWrite, Block.memRead_memWrite, if_pos ⟨rfl, rfl⟩, mergeNibble]

/-! ### PEEK (R89) -/

theorem Block.peekValue_of_top {b : Block} (hy : b.y.toNat < 12) : b.peekValue = 0 :=
  if_pos hy

theorem Block.peekValue_of_stored {b : Block} (hy : 12 ≤ b.y.toNat) :
    b.peekValue = zext8 (b.nibRead (locate b.x b.y)) :=
  if_neg (Nat.not_lt.mpr hy)

/-- Settles O23: the three kinds of rows, one by one. -/
theorem peekReturnsTheStoredPixel : Obligations.PeekReturnsTheStoredPixel := by
  intro s
  refine ⟨s.blk.peekValue, exec_peek s, ?_⟩
  intro x y low
  split
  next htop =>
    rw [Block.peekValue_of_top htop]
    rfl
  next hstored =>
    rw [Block.peekValue_of_stored (Nat.not_lt.mp hstored), zext8_toNat]
    split
    next hlow =>
      rw [Block.nibRead_toNat, locate_index_of_low hlow, locate_store_of_low hlow, apply_ite s.blk.store]
      simp only [locate_high_iff]
      rfl
    next hbank => rw [Block.nibRead_locate_bank _ (Nat.not_lt.mp hbank)]

/-! ### The stored side of PLOT (R85, R86) -/

theorem Block.storePixel_of_top {b : Block} (hy : b.y.toNat < 12) (v : Nibble) : b.storePixel v = b :=
  if_neg (Nat.not_le.mpr hy)

theorem Block.storePixel_of_stored {b : Block} (hy : 12 ≤ b.y.toNat) (v : Nibble) :
    b.storePixel v = b.nibWrite (locate b.x b.y) v :=
  if_pos hy

/-- `P` is no part of the store: writing it before or after makes no difference. -/
theorem Block.storePixel_setP (b : Block) (d : Byte) (v : Nibble) :
    (b.setP d).storePixel v = (b.storePixel v).setP d := by
  by_cases hy : 12 ≤ b.y.toNat
  · rw [Block.storePixel_of_stored hy, Block.storePixel_of_stored (b := b.setP d) hy, Block.setP_x, Block.setP_y,
      Block.nibWrite, Block.nibWrite]
    cases (locate b.x b.y).store <;> rfl
  · have htop := Nat.not_le.mp hy
    rw [Block.storePixel_of_top htop, Block.storePixel_of_top (b := b.setP d) htop]

/-- The four arrays after a PLOT are those its store left: `P`, the paint and the increments touch none. -/
theorem Block.store_plot (b : Block) (d : Byte) : (b.plot d).store = (b.storePixel (lo d)).store := by
  rw [Block.plot_eq, Block.storePixel_setP]
  funext S
  cases S <;> rfl

theorem Block.store_plot_of_top {b : Block} (hy : b.y.toNat < 12) (d : Byte) : (b.plot d).store = b.store := by
  rw [Block.store_plot, Block.storePixel_of_top hy]

/-- In rows 12 to 255 a PLOT writes one array, at one byte, which keeps its other nibble. -/
theorem Block.store_plot_of_stored {b : Block} (hy : 12 ≤ b.y.toNat) (d : Byte) (S : StoreName) :
    (b.plot d).store S =
      if S = (locate b.x b.y).store then
        Memory.write (b.store S) (locate b.x b.y).index
          (mergeNibble (Memory.read (b.store S) (locate b.x b.y).index) (locate b.x b.y).high (lo d))
      else b.store S := by
  rw [Block.store_plot, Block.storePixel_of_stored hy, Block.nibWrite, Block.memWrite, Block.store_setStore, Block.memRead]
  split
  next hS => rw [hS]
  next => rfl

theorem Block.store_plot_of_ne {b : Block} (hy : 12 ≤ b.y.toNat) (d : Byte) {S : StoreName}
    (hS : S ≠ (locate b.x b.y).store) : (b.plot d).store S = b.store S := by
  rw [Block.store_plot_of_stored hy, if_neg hS]

/-- The merged byte in plain arithmetic (R85). -/
theorem mergeNibble_lo_toNat (old : Byte) (high : Bool) (d : Byte) :
    (mergeNibble old high (lo d)).toNat =
      if high = true then 16 * (d.toNat % 16) + old.toNat % 16 else 16 * (old.toNat / 16) + d.toNat % 16 := by
  unfold mergeNibble
  split <;> simp only [joinNibbles_toNat, lo_toNat, hi_toNat]

theorem Block.nibbleStored_plot {b : Block} (hy : 12 ≤ b.y.toNat) (d : Byte) {S : StoreName}
    (hS : S = (locate b.x b.y).store) :
    nibbleStored (b.store S) ((b.plot d).store S) (locate b.x b.y).index b.x.toNat d := by
  rw [Block.store_plot_of_stored hy, if_pos hS]
  refine ⟨?_, fun k hk => ?_⟩
  · rw [Memory.read_write, if_pos rfl, mergeNibble_lo_toNat]
    simp only [locate_high_iff]
  · rw [Memory.read_write, if_neg hk]

/-- The stored side of a PLOT where bit 1 of the column selects one of two arrays: its nibble in the selected one, and the
three others kept (R80, R82). -/
theorem Block.plot_selected {b : Block} (hy : 12 ≤ b.y.toNat) (d : Byte) {S1 S0 : StoreName} (hne : S1 ≠ S0)
    (hstore : (locate b.x b.y).store = if b.x.toNat / 2 % 2 = 1 then S1 else S0) :
    (∀ S, S ≠ S1 → S ≠ S0 → (b.plot d).store S = b.store S) ∧
    if b.x.toNat / 2 % 2 = 1 then
      nibbleStored (b.store S1) ((b.plot d).store S1) (locate b.x b.y).index b.x.toNat d ∧ (b.plot d).store S0 = b.store S0
    else
      nibbleStored (b.store S0) ((b.plot d).store S0) (locate b.x b.y).index b.x.toNat d ∧ (b.plot d).store S1 = b.store S1 := by
  split
  next hbit =>
    rw [if_pos hbit] at hstore
    exact ⟨fun S h1 _ => Block.store_plot_of_ne hy d (by rwa [hstore]), Block.nibbleStored_plot hy d hstore.symm,
      Block.store_plot_of_ne hy d (by rw [hstore]; exact hne.symm)⟩
  next hbit =>
    rw [if_neg hbit] at hstore
    exact ⟨fun S _ h0 => Block.store_plot_of_ne hy d (by rwa [hstore]), Block.nibbleStored_plot hy d hstore.symm,
      Block.store_plot_of_ne hy d (by rwa [hstore])⟩

/-! ### What every PLOT does (R86, R100) -/

/-- The clamp never bites: a pixel value plus `CBANK_OFS` stays below 64 (R100, decision D15). -/
theorem bitmapIndex_val (cbank : Byte) (v : Nibble) :
    (bitmapIndex cbank v).val = v.toNat + if 0x80 ≤ cbank.toNat then 0x20 else 0 := by
  have hv := v.isLt
  simp only [bitmapIndex, topBit_iff, Param.cbankOfs]
  split <;> omega

theorem Block.palAt_bitmapIndex (b : Block) (v : Nibble) :
    b.palAt (bitmapIndex b.cbank v) = pixelColour b v.toNat := by
  rw [pixelColour, ← bitmapIndex_val, Vector.getElem?_eq_getElem (bitmapIndex b.cbank v).isLt, Option.getD_some, Block.palAt]

theorem Block.plot_wb (b : Block) (d : Byte) :
    (b.plot d).wb = Raster.write b.wb b.x.toNat b.y.toNat (pixelColour b (d.toNat % 16)) := by
  rw [Block.plot_eq, Block.palAt_bitmapIndex, lo_toNat]

theorem Block.plot_p (b : Block) (d : Byte) : (b.plot d).p = d := by
  obtain ⟨-, -, hp, -⟩ := Block.storePixel_frame (b.setP d) (lo d)
  rw [Block.plot_eq]
  exact hp

theorem Block.plotCommon_plot (b : Block) (d : Byte) : plotCommon d b (b.plot d) := by
  obtain ⟨haix, haiy, hboth, hvbank, hcbank, hpal, hdirty⟩ := Block.plot_frame b d
  refine ⟨Block.plot_p b d, Block.plot_x b d, Block.plot_y b d, ?_, fun x y hx _ hne => ?_,
    ⟨haix, haiy, hboth, hvbank, hcbank⟩, hpal, hdirty⟩
  · rw [Block.plot_wb, Raster.read_write _ b.x.isLt b.x.isLt, if_pos ⟨rfl, rfl⟩]
  · rw [Block.plot_wb, Raster.read_write _ b.x.isLt hx, if_neg hne]

/-! ### PLOT, row by row -/

/-- Settles O24: no array is written, and the rest is what every PLOT does. -/
theorem plotInTopRowsStoresNothing : Obligations.PlotInTopRowsStoresNothing := by
  intro d s hy
  have hkept (S : StoreName) : (s.blk.plot d).store S = s.blk.store S := by rw [Block.store_plot_of_top hy]
  exact ⟨s.act (·.plot d), exec_plot d s, rfl, ⟨rfl, rfl, rfl⟩, Block.plotCommon_plot s.blk d,
    hkept .vb0, hkept .vb1, hkept .lr0, hkept .lr1⟩

/-- Settles O25: the two arrays are the low-row ones. -/
theorem plotInLowRowsStoresInTheLowRowArrays : Obligations.PlotInLowRowsStoresInTheLowRowArrays := by
  intro d s hlo hhi
  obtain ⟨hkept, hselected⟩ := Block.plot_selected hlo d (by decide) (locate_store_of_low hhi)
  rw [locate_index_of_low hhi] at hselected
  exact ⟨s.act (·.plot d), exec_plot d s, rfl, ⟨rfl, rfl, rfl⟩, Block.plotCommon_plot s.blk d,
    hkept .vb0 (by decide) (by decide), hkept .vb1 (by decide) (by decide), hselected⟩

/-- Settles O26: the two arrays are the banks, and the offset lies inside them (R81). -/
theorem plotInBankRowsStoresInTheBank : Obligations.PlotInBankRowsStoresInTheBank := by
  intro d s hy
  have hindex := locate_index_lt_of_bank (x := s.blk.x) hy
  obtain ⟨hkept, hselected⟩ := Block.plot_selected (by omega) d (by decide) (locate_store_of_bank hy)
  rw [locate_index_of_bank hy] at hindex hselected
  exact ⟨s.act (·.plot d), exec_plot d s, rfl, ⟨rfl, rfl, rfl⟩, Block.plotCommon_plot s.blk d,
    hkept .lr0 (by decide) (by decide), hkept .lr1 (by decide) (by decide), hindex, hselected⟩

/-! ### The pixel plotted is the pixel read (R79) -/

theorem Block.nibRead_congr {b c : Block} (h : b.store = c.store) (q : Spot) : b.nibRead q = c.nibRead q := by
  simp only [Block.nibRead, Block.memRead, h]

theorem Block.nibRead_plot {b : Block} (hy : 12 ≤ b.y.toNat) (d : Byte) :
    (b.plot d).nibRead (locate b.x b.y) = lo d := by
  rw [Block.nibRead_congr (Block.store_plot b d), Block.storePixel_of_stored hy, Block.nibRead_nibWrite, if_pos rfl]

theorem zext8_lo (d : Byte) : zext8 (lo d) = d &&& 0x0F := by
  apply BitVec.eq_of_toNat_eq
  rw [zext8_toNat, lo_toNat, BitVec.toNat_and]
  exact (Nat.and_two_pow_sub_one_eq_mod d.toNat 4).symm

/-- A coordinate whose increment is disabled stays through any number of PLOTs. -/
theorem coordAfterPlots_of_disabled {flag : Byte} (h : 0x80 ≤ flag.toNat) (v : Byte) (n : Nat) :
    coordAfterPlots flag v n = v :=
  if_neg (Nat.not_lt.mpr h)

theorem Block.peekValue_plot {b : Block} (hy : 12 ≤ b.y.toNat) (haix : 0x80 ≤ b.aix.toNat) (haiy : 0x80 ≤ b.aiy.toNat)
    (d : Byte) : (b.plot d).peekValue = d &&& 0x0F := by
  have hx' : (b.plot d).x = b.x := by rw [Block.plot_x, coordAfterPlots_of_disabled haix]
  have hy' : (b.plot d).y = b.y := by rw [Block.plot_y, coordAfterPlots_of_disabled haiy]
  rw [Block.peekValue_of_stored (by rwa [hy']), hx', hy', Block.nibRead_plot hy, zext8_lo]

/-- Settles O27: with the cursor kept, PEEK reads the nibble PLOT wrote. -/
theorem plottedPixelReadsBack : Obligations.PlottedPixelReadsBack := by
  intro x y d s hy haix haiy
  have hpeek := Block.peekValue_plot (b := (s.blk.setX x).setY y) hy haix haiy d
  exact ⟨_, rfl, congrArg Output.byte hpeek⟩

/-! ### The cursor (R83, R84, R87, R88) -/

/-- Settles O19: the word is `encode (.setx d)`. -/
theorem setxOnlyMovesTheCursor : Obligations.SetxOnlyMovesTheCursor := fun d s =>
  ⟨decodeOfEncodeIsTheOperation (.setx d) rfl, exec_setx d s⟩

/-- Settles O20: the word is `encode (.sety d)`. -/
theorem setyOnlyMovesTheCursor : Obligations.SetyOnlyMovesTheCursor := fun d s =>
  ⟨decodeOfEncodeIsTheOperation (.sety d) rfl, exec_sety d s⟩

/-- The data field of a read is ignored (R45). -/
theorem decode_read (a : BusAddr) (d : Byte) : decode (packWord 0b01 a d) = selectRead a := by
  have hformat : unpack (packWord 0b01 a d) = .rd a :=
    unpack_eq_rd_iff.mpr ⟨kindOf_packWord 0b01 a d, addrOf_packWord 0b01 a d⟩
  rw [decode, hformat, select]

/-- The increment wraps from 0xFF to 0x00 (R86). -/
theorem coordAfterPlots_wraps {flag : Byte} (h : flag.toNat < 0x80) : coordAfterPlots flag 0xFF 1 = 0x00 := by
  rw [coordAfterPlots, if_pos h]
  rfl

/-- Settles O21: the example ends with the coordinate wrapped by the one PLOT. -/
theorem getxReturnsX : Obligations.GetxReturnsX := by
  refine ⟨exec_getx, fun d => ⟨decode_read 0x0000 0, decode_read 0x0000 d⟩, fun s d haix => ⟨_, rfl, ?_⟩⟩
  exact congrArg Output.byte ((Block.plot_x (s.blk.setX 0xFF) d).trans (coordAfterPlots_wraps haix))

/-- Settles O22: the first example replies the datum, the second the wrapped coordinate. -/
theorem getyReturnsY : Obligations.GetyReturnsY := by
  refine ⟨exec_gety, fun d => ⟨decode_read 0x0001 0, decode_read 0x0001 d⟩, fun s => ⟨_, rfl, rfl⟩,
    fun s d haiy => ⟨_, rfl, ?_⟩⟩
  exact congrArg Output.byte ((Block.plot_y (s.blk.setY 0xFF) d).trans (coordAfterPlots_wraps haiy))

end Sys2Proof.Machine
end

section
/-! SUPPORT. Family 43_dual_bank_pixel_writer: the two windows' words and effects, the cells a direct write paints, and the
window read back through the indexed port (43_dual_bank_pixel_writer.md R90 to R96). -/

namespace Sys2Proof.Machine

open Sys2Proof.Claims

/-! ### The windows' words and effects (R92, R96) -/

theorem Memory.byteStored_write (m : Memory) (a : Nat) (d : Byte) : byteStored m (Memory.write m a d) a d :=
  ⟨by rw [Memory.read_write, if_pos rfl], fun k hk => by rw [Memory.read_write, if_neg hk]⟩

theorem exec_vwr_inside {r : BitVec 14} (hr : r.toNat < 0x3A00) (d : Byte) (s : State) :
    exec (.vwr r d) s = .next (s.act (·.writeDirect r.toNat d)) := by
  simp only [exec_vwr, Param.bankSize, if_pos hr]

theorem exec_vwr1_inside {r : BitVec 14} (hr : r.toNat < 0x3A00) (d : Byte) (s : State) :
    exec (.vwr1 r d) s = .next (s.act fun b => b.setVb1 (Memory.write b.vb1 r.toNat d)) := by
  simp only [exec_vwr1, Param.bankSize, if_pos hr, Block.memWrite_vb1]

/-- Settles O32: inside the window VWR1 is one write of `VB1`, and the word is `encode (.vwr1 r d)`. -/
theorem vwr1StoresWithoutPainting : Obligations.Vwr1StoresWithoutPainting := fun r d s hr =>
  ⟨decodeOfEncodeIsTheOperation (.vwr1 r d) (decide_eq_true hr), _, exec_vwr1_inside hr d s, rfl,
    Memory.byteStored_write s.blk.vb1 r.toNat d⟩

/-! ### Painted cells add up (R91) -/

/-- Painting twice in one row paints the cells of both, where no low-nibble cell of the first is painted over with the high
nibble. -/
theorem cellsPainted_trans {b c e : Block} {y : Nat} {los his los' his' : List Nat} {d : Byte}
    (hfirst : cellsPainted b c y los his d) (hsecond : cellsPainted c e y los' his' d)
    (hcolour : pixelColour c = pixelColour b) (hapart : ∀ x ∈ los, x ∉ his') :
    cellsPainted b e y (los ++ los') (his ++ his') d := by
  intro x' y' hx' hy'
  rw [hsecond x' y' hx' hy', hfirst x' y' hx' hy', hcolour]
  simp only [List.mem_append]
  by_cases hrow : y' = y
  · by_cases hlo : x' ∈ los
    · simp [hrow, hlo, hapart x' hlo]
    · by_cases hlo' : x' ∈ los' <;> by_cases hhi' : x' ∈ his' <;> simp [hrow, hlo, hlo', hhi']
  · simp [hrow]

theorem pixelColour_setWb (b : Block) (w : Raster) : pixelColour (b.setWb w) = pixelColour b := rfl

section Paints

variable (b : Block) (w : Raster) {x : Nat} (hx : x < 256) (y : Nat)
include hx

theorem Block.read_paintOn_pixelColour (v : Nibble) {x' : Nat} (hx' : x' < 256) (y' : Nat) :
    Raster.read (b.paintOn w x y v) x' y' =
      if y' = y ∧ x' = x then pixelColour b v.toNat else Raster.read w x' y' := by
  simp only [Block.read_paintOn _ _ _ _ hx hx', Block.palAt_bitmapIndex, and_comm]

theorem Block.cellsPainted_paintOn_lo (d : Byte) :
    cellsPainted (b.setWb w) (b.setWb (b.paintOn w x y (lo d))) y [x] [] d := by
  intro x' y' hx' _
  simp [b.read_paintOn_pixelColour w hx y (lo d) hx' y', pixelColour_setWb, lo_toNat]

theorem Block.cellsPainted_paintOn_hi (d : Byte) :
    cellsPainted (b.setWb w) (b.setWb (b.paintOn w x y (hi d))) y [] [x] d := by
  intro x' y' hx' _
  simp [b.read_paintOn_pixelColour w hx y (hi d) hx' y', pixelColour_setWb, hi_toNat]

end Paints

section Placements

variable (b : Block) (w : Raster) {r : Nat} (hr : r < Param.bankSize) (d : Byte)
include hr

theorem Block.cellsPainted_placeBank0 :
    cellsPainted (b.setWb w) (b.setWb (b.placeBank0 w r d)) (windowRow r) [windowCol r] [windowCol r + 1] d := by
  have := window_range hr
  exact cellsPainted_trans (b.cellsPainted_paintOn_lo w (by omega) _ d) (b.cellsPainted_paintOn_hi _ (by omega) _ d) rfl
    (by simp)

theorem Block.cellsPainted_placeBank1 :
    cellsPainted (b.setWb w) (b.setWb (b.placeBank1 w r d)) (windowRow r) [windowCol r + 2] [windowCol r + 3] d := by
  have := window_range hr
  exact cellsPainted_trans (b.cellsPainted_paintOn_lo w (by omega) _ d) (b.cellsPainted_paintOn_hi _ (by omega) _ d) rfl
    (by simp)

/-- Fan-out paints the four cells of the offset. -/
theorem Block.cellsPainted_placeBoth :
    cellsPainted (b.setWb w) (b.setWb (b.placeBank1 (b.placeBank0 w r d) r d)) (windowRow r)
      [windowCol r, windowCol r + 2] [windowCol r + 1, windowCol r + 3] d :=
  cellsPainted_trans (b.cellsPainted_placeBank0 w hr d) (b.cellsPainted_placeBank1 _ hr d) rfl (by simp)

end Placements

/-! ### The direct write, mode by mode (R91 to R94) -/

theorem writeMode_eq (both vbank : Byte) :
    writeMode both vbank =
      if 0x80 ≤ both.toNat then .fanOut else if 0x80 ≤ vbank.toNat then .bank1 else .bank0 := by
  simp only [writeMode, topBit_iff]

theorem Block.vwrKept_writeDirect (b : Block) (r : Nat) (d : Byte) : vwrKept b (b.writeDirect r d) := by
  obtain ⟨hx, hy, hp, haix, haiy, hboth, hvbank, hcbank, hpal, hdirty, hlr0, hlr1⟩ := Block.writeDirect_frame b r d
  exact ⟨hx, hy, hp, ⟨haix, haiy, hboth, hvbank, hcbank⟩, hpal, hdirty, hlr0, hlr1⟩

/-- Settles O30: the three modes one by one, each by its bank writes and its placements. -/
theorem vwrWritesAndPaintsByMode : Obligations.VwrWritesAndPaintsByMode := by
  intro r d s hr
  refine ⟨decodeOfEncodeIsTheOperation (.vwr r d) (decide_eq_true hr), _, exec_vwr_inside hr d s, rfl, ⟨rfl, rfl, rfl⟩,
    Block.vwrKept_writeDirect s.blk r.toNat d, ?_⟩
  intro y x0
  have hy : y = windowRow r.toNat := (windowRow_eq _).symm
  have hx0 : x0 = windowCol r.toNat := (windowCol_eq _).symm
  rw [State.act_blk, Block.writeDirect_eq, writeMode_eq, hy, hx0]
  split
  next =>
    exact ⟨Memory.byteStored_write _ _ d, Memory.byteStored_write _ _ d, s.blk.cellsPainted_placeBoth s.blk.wb hr d⟩
  next =>
    split
    next => exact ⟨rfl, Memory.byteStored_write _ _ d, s.blk.cellsPainted_placeBank1 s.blk.wb hr d⟩
    next => exact ⟨Memory.byteStored_write _ _ d, rfl, s.blk.cellsPainted_placeBank0 s.blk.wb hr d⟩

/-- Settles O31: what the bank clauses of each mode say of the two bytes at the offset and of every other one. -/
theorem fanOutAndSingleBankIsolation : Obligations.FanOutAndSingleBankIsolation := by
  intro r d s hr
  obtain ⟨-, t, hexec, -, -, -, hmodes⟩ := vwrWritesAndPaintsByMode r d s hr
  refine ⟨t, hexec, ?_⟩
  split at hmodes
  next hboth =>
    obtain ⟨⟨h0, hkept0⟩, ⟨h1, hkept1⟩, -⟩ := hmodes
    exact ⟨fun _ => ⟨h0, h1⟩, by omega, by omega, fun k hk => ⟨hkept0 k hk, hkept1 k hk⟩⟩
  next hboth =>
    split at hmodes
    next hvbank =>
      obtain ⟨hvb0, ⟨h1, hkept1⟩, -⟩ := hmodes
      rw [hvb0]
      exact ⟨by omega, fun _ _ => ⟨rfl, h1⟩, by omega, fun k hk => ⟨rfl, hkept1 k hk⟩⟩
    next hvbank =>
      obtain ⟨⟨h0, hkept0⟩, hvb1, -⟩ := hmodes
      rw [hvb1]
      exact ⟨by omega, by omega, fun _ _ => ⟨h0, rfl⟩, fun k hk => ⟨hkept0 k hk, rfl⟩⟩

/-! ### The window read back through the indexed port (R95) -/

/-- The four columns of an offset are the nibbles of its two bytes (R34, R90). -/
theorem Block.bankPixel_window (b : Block) {r c : Nat} (hr : r < 0x3A00) (hc : c < 4) :
    b.bankPixel ((r + 0x600) % 64 * 4 + c) ((r + 0x600) / 64) =
      let byte := if 2 ≤ c then Memory.read b.vb1 r else Memory.read b.vb0 r
      if c % 2 = 1 then hi byte else lo byte := by
  have hoffset : (r + 0x600) / 64 * 64 + ((r + 0x600) % 64 * 4 + c) / 4 - 0x600 = r := by omega
  have hbank : ((r + 0x600) % 64 * 4 + c) / 2 % 2 = 1 ↔ 2 ≤ c := by omega
  have hnibble : ((r + 0x600) % 64 * 4 + c) % 2 = c % 2 := by omega
  simp only [Block.bankPixel, hoffset, hbank, hnibble]

/-- PEEK at a bank row returns the pixel the packing of R34 assigns (R89). -/
theorem Block.peekValue_of_bank {b : Block} (hy : 24 ≤ b.y.toNat) :
    b.peekValue = zext8 (b.bankPixel b.x.toNat b.y.toNat) := by
  rw [Block.peekValue_of_stored (by omega), Block.nibRead_locate_bank b hy]

theorem zext8_eq_ofNat (v : Nibble) : zext8 v = BitVec.ofNat 8 v.toNat :=
  (BitVec.ofNat_toNat 8 v).symm

/-- A write whose mode stores column `c` leaves the datum in the bank that column is read from. -/
theorem read_bank_of_vwr {r : BitVec 14} {d : Byte} {c : Nat} {s t : State} (hr : r.toNat < 0x3A00)
    (hstored : 0x80 ≤ s.blk.both.toNat ∨ (0x80 ≤ s.blk.vbank.toNat ↔ 2 ≤ c)) (hexec : exec (.vwr r d) s = .next t) :
    (if 2 ≤ c then Memory.read t.blk.vb1 r.toNat else Memory.read t.blk.vb0 r.toNat) = d := by
  obtain ⟨t', hexec', hfan, hbank1, hbank0, -⟩ := fanOutAndSingleBankIsolation r d s hr
  cases hexec.symm.trans hexec'
  by_cases hboth : 0x80 ≤ s.blk.both.toNat
  · obtain ⟨h0, h1⟩ := hfan hboth
    rw [h0, h1, ite_self]
  · have hside := hstored.resolve_left hboth
    by_cases hc : 2 ≤ c
    · rw [if_pos hc, (hbank1 (by omega) (hside.mpr hc)).2]
    · rw [if_neg hc, (hbank0 (by omega) (by omega)).1]

/-- Settles O34: the pixel read is the nibble of the byte the write left in that column's bank. -/
theorem windowAndIndexedPortAgree : Obligations.WindowAndIndexedPortAgree := by
  intro r d c s hr hc hstored
  obtain ⟨t, hexec, -⟩ := fanOutAndSingleBankIsolation r d s hr
  refine ⟨_, (perform_cons hexec _).trans rfl, congrArg Output.byte ?_⟩
  have hx : (BitVec.ofNat 8 ((r.toNat + 0x600) % 64 * 4 + c)).toNat = (r.toNat + 0x600) % 64 * 4 + c :=
    Nat.mod_eq_of_lt (by omega)
  have hy : (BitVec.ofNat 8 ((r.toNat + 0x600) / 64)).toNat = (r.toNat + 0x600) / 64 := Nat.mod_eq_of_lt (by omega)
  have hpeek := Block.peekValue_of_bank
    (b := (t.blk.setX (BitVec.ofNat 8 ((r.toNat + 0x600) % 64 * 4 + c))).setY (BitVec.ofNat 8 ((r.toNat + 0x600) / 64)))
    (by rw [Block.setY_y, hy]; omega)
  refine hpeek.trans ?_
  rw [Block.setY_y, Block.setY_x, Block.setX_x, hx, hy, Block.bankPixel_window _ hr hc]
  simp only [Block.setY_vb0, Block.setY_vb1, Block.setX_vb0, Block.setX_vb1, read_bank_of_vwr hr hstored hexec,
    zext8_eq_ofNat, apply_ite BitVec.toNat, hi_toNat, lo_toNat]
  split <;> rfl

end Sys2Proof.Machine
end

section
/-! SUPPORT. Family 44_rgb_framebuffer_builder: the palette banks (44_rgb_framebuffer_builder.md R100, R101), the rebuild's loop
and the renderer's loops in closed form, and FRAME (R102 to R107; 45_sprite_compositor.md R113 to R116). -/

namespace Sys2Proof.Machine

open Sys2Proof.Claims

/-! ### The palette banks (R100, R101, R113) -/

theorem spriteBank_val (cbank : Byte) : (spriteBank cbank).val = 1 + if 0x80 ≤ cbank.toNat then 2 else 0 := by
  simp only [spriteBank, topBit_iff]
  split <;> rfl

theorem bankIndex_spriteBank_val (cbank : Byte) (pen : Nibble) :
    (bankIndex (spriteBank cbank) pen).val = 16 * (1 + if 0x80 ≤ cbank.toNat then 2 else 0) + pen.toNat :=
  congrArg (16 * · + pen.toNat) (spriteBank_val cbank)

/-- Settles O39: a pixel value is at most 15, so the index stays below the clamp in either bank. -/
theorem paletteBanksOfPixelsAndSprites : Obligations.PaletteBanksOfPixelsAndSprites := by
  intro cbank v
  refine ⟨bitmapIndex_val cbank v, ?_, bankIndex_spriteBank_val cbank v⟩
  have hv := v.isLt
  rw [bitmapIndex_val]
  split <;> omega

/-! ### What a loop shows: the last pass that shows something wins -/

/-- Each pass of the loop puts what it shows, if anything, in the place looked at. -/
theorem read_foldl_eq_findSome? {σ ι γ : Type} (read : σ → γ) (f : σ → ι → σ) (shows : ι → Option γ) {l : List ι}
    (pass : ∀ s, ∀ i ∈ l, read (f s i) = (shows i).getD (read s)) (s : σ) :
    read (l.foldl f s) = (l.reverse.findSome? shows).getD (read s) := by
  induction l generalizing s with
  | nil => rfl
  | cons i l ih =>
    rw [List.foldl_cons, ih (fun s j hj => pass s j (List.mem_cons_of_mem i hj)), pass s i List.mem_cons_self,
      List.reverse_cons, List.findSome?_append]
    cases l.reverse.findSome? shows <;> simp

/-- Where one pass at most shows something, the loop shows what that pass does. -/
theorem findSome?_reverse_range {γ : Type} {shows : Nat → Option γ} {k : Nat} (only : ∀ i, i ≠ k → shows i = none) (n : Nat) :
    (List.range n).reverse.findSome? shows = if k < n then shows k else none := by
  induction n with
  | zero => rfl
  | succ n ih =>
    rw [List.range_succ, List.reverse_append, List.reverse_singleton, List.singleton_append, List.findSome?_cons, ih]
    by_cases hk : n = k
    · subst hk
      cases shows n <;> simp
    · rw [only n hk]
      have : k < n + 1 ↔ k < n := by omega
      simp only [this]

/-! ### The rebuild (R102, R103) -/

/-- The offset whose pass paints the cell (R34). -/
theorem window_cell_iff {r x y : Nat} (hr : r < Param.bankSize) (hx : x < 256) :
    (x / 4 * 4 = windowCol r ∧ y = windowRow r) ↔ 24 ≤ y ∧ y * 64 + x / 4 - 0x600 = r := by
  simp only [Param.bankSize] at hr
  rw [windowCol_eq, windowRow_eq]
  omega

/-- The colour the pass at offset `r` paints at `(x, y)`, none where it paints no such cell. -/
def Block.passColour (b : Block) (x y r : Nat) : Option Rgb :=
  if 24 ≤ y ∧ y * 64 + x / 4 - 0x600 = r then some (pixelColour b (b.bankPixel x y).toNat) else none

theorem Block.read_rebuildAt_passColour (b : Block) (w : Raster) {r : Nat} (hr : r < Param.bankSize) {x : Nat} (y : Nat)
    (hx : x < 256) : Raster.read (b.rebuildAt w r) x y = (b.passColour x y r).getD (Raster.read w x y) := by
  have hrange := window_range hr
  rw [Block.read_rebuildAt b w hr y hx, Block.passColour]
  simp only [← window_cell_iff hr hx, Block.palAt_bitmapIndex]
  by_cases hcell : x / 4 * 4 = windowCol r ∧ y = windowRow r
  · rw [if_pos hcell, Option.getD_some]
    obtain ⟨c, hc, rfl⟩ : ∃ c < 4, x = windowCol r + c := ⟨x % 4, Nat.mod_lt x (by decide), by omega⟩
    obtain ⟨-, rfl⟩ := hcell
    have hpixel := b.bankPixel_window hr hc
    rw [← windowCol_eq, ← windowRow_eq] at hpixel
    rw [hpixel]
    interval_cases c <;> simp [Block.memRead, Block.store]
  · rw [if_neg hcell, Option.getD_none, if_neg (by omega), if_neg (by omega), if_neg (by omega), if_neg (by omega)]

/-- The rebuild in closed form: the pass at a cell's own offset is the one pass that paints it. -/
theorem Block.read_rebuiltWb (b : Block) {x y : Nat} (hx : x < 256) (hy : y < 256) :
    Raster.read b.rebuiltWb x y =
      if 24 ≤ y then pixelColour b (b.bankPixel x y).toNat else Raster.read b.wb x y := by
  have honly : ∀ r, r ≠ y * 64 + x / 4 - 0x600 → b.passColour x y r = none :=
    fun r hr => if_neg fun hcell => hr hcell.2.symm
  have hinside : y * 64 + x / 4 - 0x600 < Param.bankSize := by
    simp only [Param.bankSize]
    omega
  unfold Block.rebuiltWb
  rw [read_foldl_eq_findSome? (Raster.read · x y) b.rebuildAt (b.passColour x y)
      (fun w r hr => b.read_rebuildAt_passColour w (List.mem_range.mp hr) y hx),
    findSome?_reverse_range honly, if_pos hinside, Block.passColour]
  simp only [and_true]
  split <;> rfl

/-- Settles O35: step 1 changes `WB` and `dirty` alone, and a rebuilt `WB` has the closed form. -/
theorem frameRebuildsRows24To255 : Obligations.FrameRebuildsRows24To255 := by
  intro s
  have hblk : (s.frameWith Config.tiles).blk = _ := Block.refresh_eq s.blk
  refine ⟨_, _, exec_frame s, rfl, ⟨rfl, rfl, rfl⟩, ?_, fun hclean => ?_, fun hdirty x y hx hy => ?_⟩
  · rw [hblk]
  · rw [hblk, hclean]
    rfl
  · rw [hblk, hdirty]
    exact Block.read_rebuiltWb s.blk hx hy

/-- Settles O37: the first FRAME leaves a clean block, which a further one neither changes nor shows otherwise. -/
theorem secondFrameEmitsTheSameRaster : Obligations.SecondFrameEmitsTheSameRaster := by
  intro s
  have hclean : s.blk.refresh.dirty = false := by rw [Block.refresh_eq]
  have hagain : s.blk.refresh.refresh = s.blk.refresh := Block.refresh_of_clean hclean
  refine ⟨_, _, exec_frame s, exec_frame _, ?_, hagain⟩
  simp only [State.frameWith_output, State.frameWith_blk, State.frameWith_spr, hagain]

/-! ### The renderer (R115) -/

section Tile

variable (t : TileSet) (pal : Fin 64 → Rgb) (tile : Byte) (bank : Fin 4) (xflip yflip : Bool) (x y : Int) (tpen : Nibble)

/-- The colour the pixel at `(col, row)` of a tile shows at `(px, py)`, none where it is transparent or lies elsewhere. -/
def tilePixelColour (px py row col : Nat) : Option Rgb :=
  let pen := t.pen tile (mirror xflip t.lastCol col) (mirror yflip t.lastRow row)
  if pen ≠ tpen ∧ (px : Int) = x + col ∧ (py : Int) = y + row then some (pal (bankIndex bank pen)) else none

/-- The colour a tile shows at `(px, py)`, none where it does not cover the cell or is transparent there. -/
def tileColour (px py : Nat) : Option Rgb :=
  let c := px - x
  let r := py - y
  let pen := t.pen tile (mirror xflip t.lastCol c.toNat) (mirror yflip t.lastRow r.toNat)
  if (0 ≤ c ∧ c ≤ t.lastCol) ∧ (0 ≤ r ∧ r ≤ t.lastRow) ∧ pen ≠ tpen then some (pal (bankIndex bank pen)) else none

theorem read_drawPixel_tilePixelColour (row : Nat) (out : Raster) (col : Nat) {px py : Nat} (hpx : px < 256)
    (hpy : py < 256) :
    Raster.read (drawPixel t pal tile bank xflip yflip x y tpen row out col) px py =
      (tilePixelColour t pal tile bank xflip yflip x y tpen px py row col).getD (Raster.read out px py) := by
  rw [read_drawPixel t pal tile bank xflip yflip x y tpen row out col py hpx]
  simp only [tilePixelColour, hpy, and_true]
  split <;> rfl

/-- One row of a tile: the one column that can show at `(px, py)` is `px - x`. -/
theorem findSome?_tilePixelColour_row (px py row : Nat) :
    (List.range (t.lastCol + 1)).reverse.findSome? (tilePixelColour t pal tile bank xflip yflip x y tpen px py row) =
      if (px - x).toNat < t.lastCol + 1 then
        tilePixelColour t pal tile bank xflip yflip x y tpen px py row (px - x).toNat
      else none :=
  findSome?_reverse_range (fun col hcol => if_neg (by omega)) _

/-- The renderer in closed form. -/
theorem read_drawTile (out : Raster) {px py : Nat} (hpx : px < 256) (hpy : py < 256) :
    Raster.read (drawTile t pal out tile bank xflip yflip x y tpen) px py =
      (tileColour t pal tile bank xflip yflip x y tpen px py).getD (Raster.read out px py) := by
  have hrow : ∀ row, row ≠ (py - y).toNat → (List.range (t.lastCol + 1)).reverse.findSome?
      (tilePixelColour t pal tile bank xflip yflip x y tpen px py row) = none := by
    intro row hne
    rw [findSome?_tilePixelColour_row]
    split
    · exact if_neg (by omega)
    · rfl
  unfold drawTile
  rw [read_foldl_eq_findSome? (Raster.read · px py) _ _
      (fun out row _ => read_foldl_eq_findSome? (Raster.read · px py) _ _
        (fun out col _ => read_drawPixel_tilePixelColour t pal tile bank xflip yflip x y tpen row out col hpx hpy) out),
    findSome?_reverse_range hrow, findSome?_tilePixelColour_row]
  congr 1
  rw [← ite_and, tilePixelColour, tileColour, ← ite_and]
  refine if_congr ⟨?_, ?_⟩ rfl rfl
  · rintro ⟨⟨hr, hc⟩, hpen, hx, hy⟩
    exact ⟨by omega, by omega, hpen⟩
  · rintro ⟨hc, hr, hpen⟩
    exact ⟨by omega, hpen, by omega, by omega⟩

end Tile

/-! ### The sprites on the raster (R111, R113, R114, R116) -/

theorem getLsbD_iff_toNat {w : Nat} (v : BitVec w) (i : Nat) : v.getLsbD i = true ↔ v.toNat / 2 ^ i % 2 = 1 := by
  rw [← getLsbD_toNat, Bool.toNat_eq_one]

/-- The entry a sprite pen selects, as an entry of the table. -/
theorem Block.getElem?_spritePen (b : Block) (pen : Nibble) :
    b.pal[16 * (1 + if 0x80 ≤ b.cbank.toNat then 2 else 0) + pen.toNat]? =
      some (b.palAt (bankIndex (spriteBank b.cbank) pen)) := by
  rw [← bankIndex_spriteBank_val]
  exact Vector.getElem?_eq_getElem (bankIndex (spriteBank b.cbank) pen).isLt

/-- What a sprite shows is its descriptor's tile at its position, in the sprites' palette bank and with pen 0 transparent
(R114). -/
theorem spriteColour_eq_tileColour (t : TileSet) (b : Block) (spr : Memory) (i px py : Nat) :
    spriteColour t b spr i px py =
      let q := decodeSprite spr i
      tileColour t b.palAt q.tile (spriteBank b.cbank) q.xflip q.yflip q.sx q.sy 0 px py := by
  have htransparent : ∀ pen : Nibble, pen.toNat = 0 ↔ pen = 0 := fun pen => BitVec.toNat_inj (y := 0)
  simp only [spriteColour, tileColour, decodeSprite, mirror, getLsbD_iff_toNat, Block.getElem?_spritePen, htransparent,
    ite_and, ne_eq, ite_not, Param.sprY, Param.sprTile, Param.sprAttr, Param.sprX, Param.sprYBase, Nat.zero_add,
    Nat.reducePow]

/-- The highest-numbered sprite that shows something at a cell is drawn last there (R116). -/
theorem read_drawSprites (t : TileSet) (b : Block) (spr : Memory) (out : Raster) {px py : Nat} (hpx : px < 256)
    (hpy : py < 256) :
    Raster.read (drawSprites t b spr out) px py =
      ((List.range 20).reverse.findSome? fun i => spriteColour t b spr i px py).getD (Raster.read out px py) :=
  read_foldl_eq_findSome? (Raster.read · px py) (drawSprite t b spr) (fun i => spriteColour t b spr i px py)
    (fun out i _ => by
      rw [spriteColour_eq_tileColour]
      exact read_drawTile t b.palAt _ _ _ _ _ _ 0 out hpx hpy) out

/-- Settles O36: the raster is the refreshed bitmap with the sprites drawn over it in ascending order. -/
theorem frameShowsTheTopmostSprite : Obligations.FrameShowsTheTopmostSprite := fun s =>
  ⟨_, _, exec_frame s, rfl, fun _ _ hx hy => read_drawSprites Config.tiles s.blk.refresh s.spr s.blk.refresh.wb hx hy⟩

end Sys2Proof.Machine
end

section
/-! SUPPORT. Family 45_sprite_compositor: the sprite descriptor (45_sprite_compositor.md R110, R111), what of it a sprite's
drawing depends on (R112, R114, R117), and the renderer's closed form (R115). -/

namespace Sys2Proof.Machine

/-! ### The descriptor (R110, R111) -/

theorem decodeSprite_sy_range (spr : Memory) (i : Nat) : -15 ≤ (decodeSprite spr i).sy ∧ (decodeSprite spr i).sy ≤ 240 := by
  have hy := (Memory.read spr (Param.sprY + i)).isLt
  simp only [decodeSprite, Param.sprYBase]
  omega

/-- Settles O40: each field is a byte of the table or a bit of one. -/
theorem spriteDescriptorDecode : Obligations.SpriteDescriptorDecode := by
  intro spr i _
  obtain ⟨hlow, hhigh⟩ := decodeSprite_sy_range spr i
  exact ⟨rfl, rfl, rfl, hlow, hhigh, getLsbD_iff_toNat _ 7, getLsbD_iff_toNat _ 6, getLsbD_iff_toNat _ 5,
    getLsbD_iff_toNat _ 4⟩

/-! ### The renderer (R115) -/

/-- Settles O41: the tile shows at a cell what its one pixel there does. -/
theorem drawTileClosedForm : Obligations.DrawTileClosedForm := by
  intro t pal out tile bank xflip yflip x y tpen px py hpx hpy
  rw [read_drawTile t pal tile bank xflip yflip x y tpen out hpx hpy, tileColour]
  exact apply_ite (Option.getD · (Raster.read out px py)) _ _ _

/-! ### What of the sprite table FRAME depends on (R112, R117, R118) -/

/-- The flip flags of R111 are bits 7 and 6 of the attribute byte. -/
theorem flip_bits_eq_of_div_64_eq {v w : Byte} (h : v.toNat / 64 = w.toNat / 64) :
    v.getLsbD 7 = w.getLsbD 7 ∧ v.getLsbD 6 = w.getLsbD 6 := by
  simp only [← bool_toNat_inj, getLsbD_toNat, Nat.reducePow]
  omega

/-- Two sprite tables hold the same descriptors but for the blank flags. -/
def SameDescriptors (spr spr' : Memory) : Prop :=
  ∀ i, i < 20 → Memory.read spr i = Memory.read spr' i ∧
    Memory.read spr (0x20 + i) = Memory.read spr' (0x20 + i) ∧
    Memory.read spr (0x60 + i) = Memory.read spr' (0x60 + i) ∧
    (Memory.read spr (0x40 + i)).toNat / 64 = (Memory.read spr' (0x40 + i)).toNat / 64

/-- The blank flags are not passed to the renderer (R114, R117), so they need not agree. -/
theorem drawSprite_congr (t : TileSet) (b : Block) {spr spr' : Memory} (h : SameDescriptors spr spr') (out : Raster) {i : Nat}
    (hi : i < 20) : drawSprite t b spr out i = drawSprite t b spr' out i := by
  obtain ⟨hy, htile, hx, hattr⟩ := h i hi
  obtain ⟨hxflip, hyflip⟩ := flip_bits_eq_of_div_64_eq hattr
  simp only [drawSprite, decodeSprite, Param.sprY, Param.sprTile, Param.sprAttr, Param.sprX, Nat.zero_add, hy, htile, hx,
    hxflip, hyflip]

theorem Block.compose_congr (t : TileSet) (b : Block) {spr spr' : Memory} (h : SameDescriptors spr spr') :
    b.compose t spr = b.compose t spr' :=
  List.foldl_ext _ _ _ fun out _ hi => drawSprite_congr t b h out (List.mem_range.mp hi)

/-- Settles O38: step 1 does not read the table, and step 3 only what the renderer is passed. -/
theorem frameReadsOnlyTheDescriptors : Obligations.FrameReadsOnlyTheDescriptors := fun s spr =>
  ⟨_, _, exec_frame s, exec_frame { s with spr := spr }, rfl,
    fun h => congrArg Output.raster (s.blk.refresh.compose_congr Config.tiles h)⟩

end Sys2Proof.Machine
end

section
/-! SUPPORT. Family 60_exceptions: every operation and every step goes on (60_exceptions.md R120, R121). -/

namespace Sys2Proof.Machine

/-- Every arm of `exec` ends in one of the ports `act`, `reply` and `frameWith`, and each answers a next state; an ill-formed
window offset is a case of the block's update, not of the outcome (log entry 18). -/
theorem exec_goes_on (i : Instr) (s : State) : ∃ t, exec i s = .next t := by
  cases i with
  | setx d | sety d | plot d | vwr r d | pal o d | aix d | aiy d | both d | vbank d | cbank d | vwr1 r d | reset =>
    exact ⟨s.act _, rfl⟩
  | getx | gety | peek => exact ⟨s.reply _, rfl⟩
  | frame => exact ⟨s.frameWith Config.tiles, exec_frame s⟩

/-- A step is idle, an undecoded access or the operation presented, and goes on in each case. -/
theorem step_goes_on (s : State) : ∃ t, step s = .next t := by
  cases hpending : s.pending with
  | nil => exact ⟨s, blockNeverInitiatesAnOperation s hpending⟩
  | cons q rest =>
    cases hdecode : decode q.word with
    | error e => exact ⟨_, undecodedAccessChangesNothing s q rest e hpending hdecode⟩
    | ok i =>
      rw [stepPerformsThePresentedOperation s q rest i hpending hdecode]
      exact exec_goes_on i _

/-- Settles O9: the outcome of every arm and of every kind of step is a next state, and `Fault` has no constructor. -/
theorem everyOperationRunsToCompletion : Obligations.EveryOperationRunsToCompletion :=
  ⟨exec_goes_on, step_goes_on, fun fault => nomatch fault⟩

end Sys2Proof.Machine
end

section
/-! SUPPORT. Family 70_reset_and_hazards: RESET and its assignment, and the hazard of a CBANK write before a FRAME
(70_reset_and_hazards.md R140, R141, R149). -/

namespace Sys2Proof.Machine

/-! ### RESET and its assignment (R140, R141) -/

/-- A reset strobe's address and data fields are ignored (R45). -/
theorem decode_reset (a : BusAddr) (d : Byte) : decode (packWord 0b11 a d) = .ok .reset :=
  decode_eq_ok_iff.mpr ⟨rfl, (unpack_eq_reset_iff.mpr (kindOf_packWord 0b11 a d)).symm⟩

/-- Settles O42: the block becomes `resetValue`, which RESET itself keeps, so a second one finds its own result. -/
theorem resetRestoresTheAssignment : Obligations.ResetRestoresTheAssignment :=
  ⟨exec_reset, decode_reset, fun s => ⟨_, exec_reset s, exec_reset (s.act fun _ => s.resetValue)⟩⟩

theorem Block.wf_zero : Block.zero.wf :=
  ⟨sparseWf_nil _ _, sparseWf_nil _ _, sparseWf_nil _ _, sparseWf_nil _ _, sparseWf_nil _ _⟩

theorem State.wf_afterReset {rv : Block} (h : rv.wf) : (State.afterReset rv).wf :=
  ⟨h, h, sparseWf_nil _ _, List.forall_mem_nil _, trivial⟩

/-- Settles O43: the block is the assignment, and nothing is listed or presented besides. -/
theorem resetStateIsWellFormed : Obligations.ResetStateIsWellFormed :=
  ⟨State.wf_afterReset Block.wf_zero, fun rv h => ⟨State.wf_afterReset h, State.afterReset_blk rv⟩⟩

/-- Settles O44, with `step_cases`: a step is idle, an undecoded access or an operation, and none writes `resetValue`. -/
theorem resetValueNeverChanges : Obligations.ResetValueNeverChanges := by
  intro s t hstep
  rcases step_cases hstep with ⟨-, rfl⟩ | ⟨q, rest, e, -, -, rfl⟩ | ⟨q, rest, i, -, -, hexec⟩
  · rfl
  · exact State.notAddressed_resetValue _
  · obtain ⟨hkept, -, -⟩ := exec_ports hexec
    exact hkept

/-! ### CBANK before FRAME (R107, R149) -/

/-- Settles O14: the write leaves `dirty` clear, so step 1 of the FRAME leaves the block alone. -/
theorem cbankWriteRequestsNoRebuild : Obligations.CbankWriteRequestsNoRebuild := by
  intro d s hclean
  have hclean' : (s.blk.setCbank d).dirty = false := by rw [Block.setCbank_dirty, hclean]
  exact ⟨_, (perform_cons (exec_cbank d s) _).trans (perform_cons (exec_frame _) _), Block.refresh_of_clean hclean'⟩

end Sys2Proof.Machine
end
